-- ==== Sys2Proof/Word.lean ====
section
/-! DEFINITION. The word types of the block: every datum is an 8-bit byte, or a 16-bit or 32-bit
unsigned value assembled from bytes (00_scope.md R6), and a frame is exactly 18 bytes (00_scope.md R5,
30_encoding.md R70). -/

namespace Sys2Proof

/-- A byte (R8). -/
abbrev Byte := BitVec 8

/-- A 16-bit unsigned value: LEN, CSUM, the checksum (R6). -/
abbrev Half := BitVec 16

/-- A 32-bit unsigned value: ADDR (R6). -/
abbrev Word := BitVec 32

/-- The 18 bytes of one frame in wire order; entry 0 is the first byte on the wire (R70). -/
abbrev Frame := Vector Byte 18

end Sys2Proof
end

