-- ==== Sys2Proof/Machine/Bytes.lean ====
section
/-! DEFINITION. Byte order: multi-byte fields are little-endian, the byte at the lower offset the less
significant one (00_scope.md R9, 20_memory.md R54). -/

namespace Sys2Proof.Machine

/-- `LE16(b0, b1)`: b0 at the lower offset (R9). -/
def le16 (b0 b1 : Byte) : Half := b0.setWidth 16 ||| (b1.setWidth 16 <<< 8)

/-- `LE32(b0, b1, b2, b3)`: b0 at the lowest offset (R9). -/
def le32 (b0 b1 b2 b3 : Byte) : Word :=
  b0.setWidth 32 ||| (b1.setWidth 32 <<< 8) ||| (b2.setWidth 32 <<< 16) ||| (b3.setWidth 32 <<< 24)

/-- `lo8(v) = v[7:0]` (R9). -/
def lo8 (v : Half) : Byte := v.extractLsb' 0 8

/-- `hi8(v) = v[15:8]` (R9). -/
def hi8 (v : Half) : Byte := v.extractLsb' 8 8

/-- Byte k of a 32-bit value, k = 0 the least significant: the inverse of LE32, one byte at a time (R9). -/
def byteOf (k : Nat) (v : Word) : Byte := v.extractLsb' (8 * k) 8

end Sys2Proof.Machine
end

