-- ==== Sys2Proof/Config.lean ====
section
/-! DEFINITION. The build-time parameters of the block (00_scope.md R4) with the spec's defaults, what
makes a choice of them legal, the constants the source settles, and the free values: the answers of the
Memory Access backend (20_memory.md R52) and the bytes a block reset leaves unspecified (R181). -/

namespace Sys2Proof

/-- `PACKET_SIZE`: 18 only (R4, R5). -/
def Config.packetSize : Nat := 18

/-- `DATA_CAP`: 4 only (R4). -/
def Config.dataCap : Nat := 4

/-- `CRC_INIT`: 0xFFFF only (R4). -/
def Config.crcInit : Half := 0xFFFF#16

/-- `CMD_CODE`: the command byte of each of the six commands (R4, R74). -/
structure CmdCodes where
  ping     : Byte
  readMem  : Byte
  writeMem : Byte
  readReg  : Byte
  writeReg : Byte
  reset    : Byte
  deriving DecidableEq, Repr

/-- `FLAG_BIT`: the bit of each flag in the FLAGS byte (R4, R29). -/
structure FlagBits where
  memIdPresent : Fin 8
  lenPresent   : Fin 8
  ack          : Fin 8
  seqPresent   : Fin 8
  lastPacket   : Fin 8
  statusError  : Fin 8
  deriving DecidableEq, Repr

/-- `TX_FULL_POLICY` (R4, R140): what happens to the rest of a response after one byte met a full TX. -/
inductive TxFullPolicy where
  | dropContinue
  | abortRest
  deriving DecidableEq, Repr

/-- The parameters of R4 that the source leaves open. They are fixed for one machine: a state carries
them and no step changes them (log entry 7). -/
structure Config where
  startMarker  : Byte
  endMarker    : Byte
  bufSize      : Nat
  rxSlots      : Nat
  txSlots      : Nat
  cmdCode      : CmdCodes
  flagBit      : FlagBits
  txFullPolicy : TxFullPolicy
  deriving DecidableEq, Repr

/-- The defaults of R4 (log entry 7). -/
def Config.default : Config where
  startMarker  := 0xAA#8
  endMarker    := 0x55#8
  bufSize      := 20
  rxSlots      := 128
  txSlots      := 128
  cmdCode      := ⟨0x01#8, 0x02#8, 0x03#8, 0x04#8, 0x05#8, 0x06#8⟩
  flagBit      := ⟨0, 1, 2, 3, 4, 5⟩
  txFullPolicy := .dropContinue

/-- The six command codes in the order of R74. -/
def CmdCodes.toList (k : CmdCodes) : List Byte :=
  [k.ping, k.readMem, k.writeMem, k.readReg, k.writeReg, k.reset]

/-- The six flag bit numbers in the order of R29. -/
def FlagBits.toList (k : FlagBits) : List (Fin 8) :=
  [k.memIdPresent, k.lenPresent, k.ack, k.seqPresent, k.lastPacket, k.statusError]

/-- The legal range of the parameters (R4). -/
abbrev Config.Legal (c : Config) : Prop :=
  c.cmdCode.toList.Nodup ∧ c.flagBit.toList.Nodup ∧ 18 ≤ c.bufSize ∧
    (2 ≤ c.rxSlots ∧ c.rxSlots ≤ 256) ∧ (19 ≤ c.txSlots ∧ c.txSlots ≤ 256)

/-- FREE VALUE (log entry 4). The backend's answer to its `draw`-th question `MemRead(zone, addr, n)`:
`none` is `Err`, `some r` is `Ok(r)` with exactly n bytes (20_memory.md R52). Nothing constrains it. -/
opaque Config.backendAnswer (draw : Nat) (zone : Byte) (addr : Word) (n : Half) :
    Option (Vector Byte n.toNat)

/-- FREE VALUE (log entry 6). The byte at `place` of the storage that a block reset, the `draw`-th free
value drawn, leaves unspecified (70_reset_and_hazards.md R181). -/
opaque Config.unspecifiedByte (draw place : Nat) : Byte

end Sys2Proof
end

