-- ==== Sys2Proof/Machine/Checksum.lean ====
section
/-! DEFINITION. The checksum of 41_checksum.md, transcribed from R100 and R101. -/

namespace Sys2Proof.Machine

/-- The value `x` of R100 after its second line; every value is held in 16 bits. -/
def crcFold (crc : Half) (b : Byte) : Half :=
  let x := (crc >>> 8) ^^^ b.setWidth 16
  x ^^^ (x >>> 4)

/-- `Crc16Step(crc, b)` (R100): 16-bit truncating arithmetic. -/
def crc16Step (crc : Half) (b : Byte) : Half :=
  let x := crcFold crc b
  (crc <<< 8) ^^^ (x <<< 12) ^^^ (x <<< 5) ^^^ x

/-- `Crc16` (R101): the step folded over the bytes in order from CRC_INIT; no final XOR. -/
def crc16 (bytes : List Byte) : Half := bytes.foldl crc16Step Config.crcInit

end Sys2Proof.Machine
end

