-- ==== Sys2Proof/Machine/Operands.lean ====
section
/-! DEFINITION. The frame-field registers: fixed little-endian views of the frame buffer's bytes, not
storage of their own (10_state.md R21, 30_encoding.md R71), their writes, and the frame checksum over its
fixed span (R73, 41_checksum.md R102). Every reading and writing of a field goes through these. -/

namespace Sys2Proof.Machine

/-- `SOF` = buf[0] (R21). -/
def regSof (f : Frame) : Byte := f[0]
/-- `CMD` = buf[1] (R71). -/
def regCmd (f : Frame) : Byte := f[1]
/-- `FLAGS` = buf[2] (R71). -/
def regFlags (f : Frame) : Byte := f[2]
/-- `SEQ` = buf[3] (R71). -/
def regSeq (f : Frame) : Byte := f[3]
/-- `ZONE` = buf[4] (R71). -/
def regZone (f : Frame) : Byte := f[4]
/-- `ADDR` = LE32(buf[5], buf[6], buf[7], buf[8]) (R71). -/
def regAddr (f : Frame) : Word := le32 f[5] f[6] f[7] f[8]
/-- `LEN` = LE16(buf[9], buf[10]) (R71). -/
def regLen (f : Frame) : Half := le16 f[9] f[10]
/-- `DATA[i]` = buf[11 + i], i = 0..3 (R71). -/
def regData (f : Frame) (i : Fin 4) : Byte := f[11 + i.val]
/-- `CSUM` = LE16(buf[15], buf[16]) (R71). -/
def regCsum (f : Frame) : Half := le16 f[15] f[16]
/-- `EOF` = buf[17] (R21). -/
def regEof (f : Frame) : Byte := f[17]

/-- `FLAGS <- v` (R21). -/
def writeFlags (v : Byte) (f : Frame) : Frame := f.set 2 v

/-- `DATA[i] <- b` (R21). There are four DATA registers: no frame that passes validation asks for another,
and a write to a fifth does nothing (log entry 12). -/
def writeData (i : Nat) (b : Byte) (f : Frame) : Frame :=
  if h : i < 4 then f.set (11 + i) b else f

/-- The loop `DATA[i] <- bytes[i]` of R132, from register i on. -/
def copyData : Nat → List Byte → Frame → Frame
  | _, [], f => f
  | i, b :: bs, f => copyData (i + 1) bs (writeData i b f)

/-- `CSUM <- c`: lo8 at offset 15, hi8 at offset 16 (R102, R139). -/
def writeCsum (c : Half) (f : Frame) : Frame := (f.set 15 (lo8 c)).set 16 (hi8 c)

/-- The checksum span: buf[1..14], always 14 bytes (R73). -/
def spanOf (f : Frame) : List Byte :=
  [f[1], f[2], f[3], f[4], f[5], f[6], f[7], f[8], f[9], f[10], f[11], f[12], f[13], f[14]]

/-- The frame checksum `Crc16(buf[1..14])` (R102). -/
def frameCrc (f : Frame) : Half := crc16 (spanOf f)

/-- `RecomputeChecksum()` (R139). -/
def recomputeChecksum (f : Frame) : Frame := writeCsum (frameCrc f) f

end Sys2Proof.Machine
end

