-- ==== Sys2Proof/Machine/Validator.lean ====
section
/-! DEFINITION. The frame validator (43_validator.md): markers, then length, then checksum; the first
failing check names the class. It reads the frame and writes nothing. -/

namespace Sys2Proof.Machine

/-- The classes of `FrameDrop` (60_exceptions.md R160). -/
inductive DropClass where
  /-- A marker is wrong (R121). -/
  | framingMarker
  /-- LEN is above DATA_CAP (R122). -/
  | framingLength
  /-- The checksum does not match (R123). -/
  | integrity
  /-- The overflow guard of the parser (R113). -/
  | overflow
  deriving DecidableEq, Repr

/-- The validator's verdict (R120). -/
inductive Verdict where
  | valid
  | invalid (cls : DropClass)
  deriving DecidableEq, Repr

/-- `Validate()` (R120). -/
def validate (c : Config) (f : Frame) : Verdict :=
  if regSof f ≠ c.startMarker ∨ regEof f ≠ c.endMarker then .invalid .framingMarker
  else if Config.dataCap < (regLen f).toNat then .invalid .framingLength
  else if frameCrc f ≠ regCsum f then .invalid .integrity
  else .valid

end Sys2Proof.Machine
end

