-- ==== Sys2Proof/Machine/State.lean ====
section
/-! DEFINITION. The state of the block (10_state.md), the observation trace (60_exceptions.md R160), the
reasons a step can stop, and the state right after block reset (70_reset_and_hazards.md R181). -/

namespace Sys2Proof.Machine

/-- The answer of the Memory Access backend to a read (20_memory.md R51). -/
inductive MemAnswer where
  | ok (bytes : List Byte)
  | err
  deriving DecidableEq, Repr

/-- A call the engine makes on the Memory Access port (10_state.md R31). -/
inductive MemCall where
  | read (zone : Byte) (addr : Word) (n : Half)
  | write (zone : Byte) (addr : Word) (bytes : List Byte)
  deriving DecidableEq, Repr

/-- The events of the observation trace (R160). -/
inductive Event where
  | rxOverflow (b : Byte)
  | idleDiscard (b : Byte)
  | frameDrop (cls : DropClass)
  | memReadEv (zone : Byte) (addr : Word) (n : Half) (answer : MemAnswer)
  | response (cmd : Byte) (ok : Bool)
  | txOverflow (k : Fin 18) (b : Byte)
  | txByte (b : Byte)
  deriving DecidableEq, Repr

/-- The engine phase (R24): taking bytes, or about to offer buf[k] to TX. -/
inductive Phase where
  | run
  | emit (k : Fin 18)
  deriving DecidableEq, Repr

/-- A byte channel (R25, R26): its slots and its two 8-bit indices. -/
structure Channel where
  slots : List Byte
  head  : BitVec 8
  tail  : BitVec 8
  deriving DecidableEq, Repr

/-- What the channel ports answer the link (R31). -/
inductive LinkReply where
  | pushOk
  | pushFull
  | popByte (b : Byte)
  | popEmpty
  deriving DecidableEq, Repr

/-- One scheduled step (20_memory.md R58; R180 for the block reset). -/
inductive Turn where
  /-- `LinkPush(b)`. -/
  | linkPush (b : Byte)
  /-- `LinkPop`. -/
  | linkPop
  /-- The engine's turn: `EngineByte` or `EngineEmit`, whichever is enabled. -/
  | engine
  /-- The block reset. -/
  | blockReset
  deriving DecidableEq, Repr

/-- The whole state. `cfg` holds the build-time parameters (R4), which no step changes. `buf` is
buf[0..17] and `headroom` is buf[18..BUF_SIZE-1] (R20). `turns`, `draws` and `memCalls` are the model's own
(log entries 1, 4, 13); `trace` is the spec's observation device (R160); `linkReply` is what the ports last
answered the link (R31). -/
structure State where
  cfg       : Config
  buf       : Frame
  headroom  : List Byte
  started   : Bool
  idx       : BitVec 8
  phase     : Phase
  rx        : Channel
  tx        : Channel
  trace     : List Event
  linkReply : Option LinkReply
  turns     : List Turn
  draws     : Nat
  memCalls  : List MemCall
  deriving DecidableEq, Repr

/-- Why the machine stops. The block has no trap and nothing in it is fatal (60_exceptions.md R161, R167),
so there is no reason to stop and no constructor (log entry 16): nobody raises one. -/
inductive Fault where
  deriving DecidableEq, Repr

/-- Why a step has no meaning. -/
inductive Refusal where
  /-- Raised by an arm of exec whose instruction has no meaning yet; safe. No arm raises it now: all six
  commands are modelled. -/
  | notModelled (mnemonic : String)
  deriving DecidableEq, Repr

/-- A channel of n slots at reset: empty, both indices 0 (R181). The slots' contents are unspecified there;
0 is the value the model names (DESIGN CHOICE, log entry 5). -/
def Channel.reset (n : Nat) : Channel := ⟨List.replicate n 0#8, 0#8, 0#8⟩

/-- The block with parameters c right after block reset (R181). The contents of the frame buffer are
unspecified there; 0 is the value the model names (DESIGN CHOICE, log entry 5). -/
def State.resetWith (c : Config) : State where
  cfg       := c
  buf       := Vector.replicate 18 0#8
  headroom  := List.replicate (c.bufSize - 18) 0#8
  started   := false
  idx       := 0#8
  phase     := .run
  rx        := Channel.reset c.rxSlots
  tx        := Channel.reset c.txSlots
  trace     := []
  linkReply := none
  turns     := []
  draws     := 0
  memCalls  := []

/-- The machine right after reset, with the default parameters (R4, R181). -/
def State.reset : State := State.resetWith Config.default

end Sys2Proof.Machine
end

