-- ==== Sys2Proof/Machine/Ops.lean ====
section
/-! DEFINITION. The named operations every meaning is written with: updates of one piece of state, the two
channel operations (40_byte_channel.md), the drop of a frame, which is this block's only error entry
(60_exceptions.md R161, R167), and the end of a response (44_dispatcher.md R141), its return to IDLE. -/

namespace Sys2Proof.Machine

/-! ### Updates of one piece of state -/

/-- Replace the frame buffer's bytes 0..17. -/
def State.setBuf (s : State) (f : Frame) : State := { s with buf := f }
/-- Replace the frame buffer's headroom. -/
def State.setHeadroom (s : State) (h : List Byte) : State := { s with headroom := h }
/-- `started <- v; idx <- i` (R22). -/
def State.setCursor (s : State) (v : Bool) (i : BitVec 8) : State := { s with started := v, idx := i }
/-- `phase <- p` (R24). -/
def State.setPhase (s : State) (p : Phase) : State := { s with phase := p }
/-- Replace the RX channel. -/
def State.setRx (s : State) (ch : Channel) : State := { s with rx := ch }
/-- Replace the TX channel. -/
def State.setTx (s : State) (ch : Channel) : State := { s with tx := ch }
/-- `record e` (R160). -/
def State.record (s : State) (e : Event) : State := { s with trace := s.trace ++ [e] }
/-- What a port answers the link (R31). -/
def State.setReply (s : State) (r : LinkReply) : State := { s with linkReply := some r }
/-- The schedule that remains. -/
def State.setTurns (s : State) (ts : List Turn) : State := { s with turns := ts }
/-- The next free value is taken. -/
def State.draw (s : State) : State := { s with draws := s.draws + 1 }
/-- One call on the Memory Access port. -/
def State.call (s : State) (m : MemCall) : State := { s with memCalls := s.memCalls ++ [m] }

/-! ### The byte channels -/

/-- The index after i in a channel of n slots. -/
def nextIndex (n : Nat) (i : BitVec 8) : BitVec 8 := BitVec.ofNat 8 ((i.toNat + 1) % n)

/-- `Push(ch, b)` on a channel of n slots (R90); `none` is `Full`. -/
def Channel.push (n : Nat) (ch : Channel) (b : Byte) : Option Channel :=
  if (ch.head.toNat + 1) % n = ch.tail.toNat then none
  else some { ch with slots := ch.slots.set ch.head.toNat b, head := nextIndex n ch.head }

/-- `Pop(ch)` on a channel of n slots (R91); `none` is `Empty`. -/
def Channel.pop (n : Nat) (ch : Channel) : Option (Byte × Channel) :=
  if ch.head = ch.tail then none
  else some (ch.slots.getD ch.tail.toNat 0#8, { ch with tail := nextIndex n ch.tail })

/-- `head = tail` means empty (R92). -/
def Channel.isEmpty (ch : Channel) : Bool := ch.head == ch.tail

/-- The level `tx_ready` (R27, R96). -/
def State.txReady (s : State) : Bool := !s.tx.isEmpty

/-! ### The frame buffer and the cursor -/

/-- `buf[i] <- b` for i < BUF_SIZE (R20): bytes 18 and up lie in the headroom. -/
def State.storeByte (s : State) (i : Nat) (b : Byte) : State :=
  if h : i < 18 then s.setBuf (s.buf.set i b) else s.setHeadroom (s.headroom.set (i - 18) b)

/-- The cursor back to IDLE (R23). -/
def State.toIdle (s : State) : State := s.setCursor false 0#8

/-- `raise Drop(cls)` (R10, R124): record the event, no response, the cursor back to IDLE, the phase as it
is. This is the one error entry of the block: no state is saved and nothing is vectored (R167). -/
def State.drop (s : State) (cls : DropClass) : State := (s.record (.frameDrop cls)).toIdle

/-- `EndResponse()` (R141): back to IDLE and RUN. -/
def State.endResponse (s : State) : State := s.toIdle.setPhase .run

end Sys2Proof.Machine
end

