-- ==== Sys2Proof/Machine/Flags.lean ====
section
/-! DEFINITION. The FLAGS register (10_state.md R29) and the two flags a response writes (44_dispatcher.md
R138). -/

namespace Sys2Proof.Machine

/-- The byte with bit n alone: `1 << n` (R138). -/
def bitMask (n : Fin 8) : Byte := 1#8 <<< n.val

/-- The FLAGS value of `SetResponseFlags(ok)` on request flags v (R138). -/
def responseFlags (k : FlagBits) (ok : Bool) (v : Byte) : Byte :=
  if ok then (v ||| bitMask k.ack) &&& ~~~(bitMask k.statusError)
  else v ||| bitMask k.ack ||| bitMask k.statusError

end Sys2Proof.Machine
end

