-- ==== Sys2Proof/Machine/Response.lean ====
section
/-! DEFINITION. Forming the response in place (44_dispatcher.md R130, R138, R139) and entering EMIT(0)
(42_parser.md R114): the part that every command shares. -/

namespace Sys2Proof.Machine

/-- The response frame formed from the frame f: the flags, then the checksum over the mutated body. -/
def responseFrame (k : FlagBits) (ok : Bool) (f : Frame) : Frame :=
  recomputeChecksum (writeFlags (responseFlags k ok (regFlags f)) f)

/-- `SetResponseFlags(ok); RecomputeChecksum(); record Response(CMD, ok)` (R130), then `phase <- EMIT(0)`
(R114); the cursor stays COMPLETE. -/
def State.respond (s : State) (ok : Bool) : State :=
  ((s.setBuf (responseFrame s.cfg.flagBit ok s.buf)).record (.response (regCmd s.buf) ok)).setPhase (.emit 0)

end Sys2Proof.Machine
end

