-- ==== Sys2Proof/Machine/Emitter.lean ====
section
/-! DEFINITION. Queuing the response, one byte per step (44_dispatcher.md R140, R141). -/

namespace Sys2Proof.Machine

/-- After byte k was offered: the end of the response at 17, else EMIT(k + 1) (R140). -/
def nextEmit (k : Fin 18) (s : State) : State :=
  if h : k.val + 1 < 18 then s.setPhase (.emit ⟨k.val + 1, h⟩) else s.endResponse

/-- `EngineEmit` in phase EMIT(k) (R140). -/
def engineEmit (k : Fin 18) (s : State) : State :=
  match s.tx.push s.cfg.txSlots s.buf[k] with
  | some tx => nextEmit k (s.setTx tx)
  | none =>
    match s.cfg.txFullPolicy with
    | .abortRest => (s.record (.txOverflow k s.buf[k])).endResponse
    | .dropContinue => nextEmit k (s.record (.txOverflow k s.buf[k]))

end Sys2Proof.Machine
end

