-- ==== Sys2Proof/Machine/Link.lean ====
section
/-! DEFINITION. The link agent's two steps (20_memory.md R58) and the block reset
(70_reset_and_hazards.md R180). -/

namespace Sys2Proof.Machine

/-- `LinkPush(b)` (R58): push to RX; on Full the byte is dropped and RxOverflow is recorded. -/
def linkPush (b : Byte) (s : State) : State :=
  match s.rx.push s.cfg.rxSlots b with
  | some rx => (s.setRx rx).setReply .pushOk
  | none => (s.record (.rxOverflow b)).setReply .pushFull

/-- `LinkPop` (R58): enabled while tx_ready is 1; on an empty TX the port answers Empty and nothing else
happens (R91). -/
def linkPop (s : State) : State :=
  match s.tx.pop s.cfg.txSlots with
  | some (b, tx) => ((s.setTx tx).record (.txByte b)).setReply (.popByte b)
  | none => s.setReply .popEmpty

/-- n bytes that a block reset leaves unspecified: free values, from `place` on (log entry 6). -/
def unspecifiedBytes (draw place n : Nat) : List Byte :=
  (List.range n).map (fun i => Config.unspecifiedByte draw (place + i))

/-- The block reset (R180, R181): every piece of the block's state to its reset value in one step; a partial
frame and a response being queued are lost. Buffer and slot contents are unspecified: free values. The
parameters, the schedule and the observations are no state of the block and stay (log entries 6, 13). -/
def blockReset (s : State) : State :=
  let n := s.cfg.bufSize
  let contents : State :=
    (s.setBuf (Vector.ofFn fun i : Fin 18 => Config.unspecifiedByte s.draws i.val)).setHeadroom
      (unspecifiedBytes s.draws 18 (n - 18))
  let channels : State :=
    (contents.setRx ⟨unspecifiedBytes s.draws n s.cfg.rxSlots, 0#8, 0#8⟩).setTx
      ⟨unspecifiedBytes s.draws (n + s.cfg.rxSlots) s.cfg.txSlots, 0#8, 0#8⟩
  (channels.toIdle.setPhase .run).draw

end Sys2Proof.Machine
end

