-- ==== Sys2Proof/Syntax.lean ====
section
/-! DEFINITION. The instructions of the block: one constructor for each row of spec/opcode_table.json
(30_encoding.md R74). An instruction is a request frame whose command is one of the six: its operands are
the field registers between the command byte and the checksum (R70, R71). The markers and the checksum
carry no choice in a valid frame and are not operands. An unknown command (R137) has no row and is no
instruction: the decoder names it (log entry 9). -/

namespace Sys2Proof

/-- The fields of a request that a host chooses freely besides the command (R70, R71). -/
structure Fields where
  flags : Byte
  seq   : Byte
  zone  : Byte
  addr  : Word
  len   : Half
  data0 : Byte
  data1 : Byte
  data2 : Byte
  data3 : Byte
  deriving DecidableEq, Repr

/-- The six commands (R74), each with the fields of its frame. -/
inductive Instr where
  /-- PING, R131. -/
  | ping (f : Fields)
  /-- READ_MEM, R132. -/
  | readMem (f : Fields)
  /-- WRITE_MEM, R133. -/
  | writeMem (f : Fields)
  /-- READ_REG, R134. -/
  | readReg (f : Fields)
  /-- WRITE_REG, R135. -/
  | writeReg (f : Fields)
  /-- RESET, R136. -/
  | reset (f : Fields)
  deriving DecidableEq, Repr

/-- The fields of an instruction's frame. -/
def Instr.fields : Instr → Fields
  | .ping f => f
  | .readMem f => f
  | .writeMem f => f
  | .readReg f => f
  | .writeReg f => f
  | .reset f => f

/-- The command byte that selects an instruction under the codes k (R74). -/
def Instr.code (k : CmdCodes) : Instr → Byte
  | .ping _ => k.ping
  | .readMem _ => k.readMem
  | .writeMem _ => k.writeMem
  | .readReg _ => k.readReg
  | .writeReg _ => k.writeReg
  | .reset _ => k.reset

end Sys2Proof
end

