-- ==== Sys2Proof/WellFormed.lean ====
section
/-! DEFINITION. Which instructions are well formed. The one check a field must pass is the length:
LEN is at most DATA_CAP = 4, for every command (30_encoding.md R78, 43_validator.md R122). Every value of
FLAGS, SEQ, ZONE, ADDR and DATA is legal (R77, R79, R125). -/

namespace Sys2Proof

/-- LEN ≤ DATA_CAP as an unsigned 16-bit comparison (R122). -/
def Fields.wf (f : Fields) : Bool := decide (f.len.toNat ≤ Config.dataCap)

/-- The well-formed instructions: those whose frame passes the length check (R78). -/
def Instr.wf (i : Instr) : Bool := i.fields.wf

end Sys2Proof
end

