-- ==== Sys2Proof/Decode.lean ====
section
/-! DEFINITION. The decoder, total on every sequence of bytes and rejecting by name, and after it the
encoder (30_encoding.md R70 to R74, R82). A frame is first judged by the validator (43_validator.md R120),
then its CMD byte selects the operation (44_dispatcher.md R130). -/

namespace Sys2Proof

open Sys2Proof.Machine

/-- Why a sequence of bytes is no instruction. -/
inductive Reject where
  /-- It is not 18 bytes long (R70). -/
  | notEighteenBytes
  /-- The validator drops it (R120). -/
  | invalid (cls : DropClass)
  /-- It is a valid frame whose command is none of the six (R80, R137). -/
  | unknownCommand (cmd : Byte)
  deriving DecidableEq, Repr

/-- What a sequence of bytes decodes to: an instruction, or a rejection by name. -/
inductive Decoded where
  | instr (i : Instr)
  | rejected (why : Reject)
  deriving DecidableEq, Repr

/-- The operands assembled from the frame's bytes (R71). -/
def fieldsOf (f : Frame) : Fields where
  flags := regFlags f
  seq   := regSeq f
  zone  := regZone f
  addr  := regAddr f
  len   := regLen f
  data0 := regData f 0
  data1 := regData f 1
  data2 := regData f 2
  data3 := regData f 3

/-- Selection by the whole CMD byte, in the order of R130; `none` is the arm `otherwise` (R137). -/
def instrOf (k : CmdCodes) (f : Frame) : Option Instr :=
  if regCmd f = k.ping then some (.ping (fieldsOf f))
  else if regCmd f = k.readMem then some (.readMem (fieldsOf f))
  else if regCmd f = k.writeMem then some (.writeMem (fieldsOf f))
  else if regCmd f = k.readReg then some (.readReg (fieldsOf f))
  else if regCmd f = k.writeReg then some (.writeReg (fieldsOf f))
  else if regCmd f = k.reset then some (.reset (fieldsOf f))
  else none

/-- The decoding of one frame: the validator's verdict, then the command (R114, R130). -/
def decodeFrame (c : Config) (f : Frame) : Decoded :=
  match validate c f with
  | .invalid cls => .rejected (.invalid cls)
  | .valid =>
    match instrOf c.cmdCode f with
    | some i => .instr i
    | none => .rejected (.unknownCommand (regCmd f))

/-- The decoding of any sequence of bytes; a frame is exactly 18 of them (R70). -/
def decode (c : Config) (bytes : List Byte) : Decoded :=
  if h : bytes.length = 18 then decodeFrame c ⟨bytes.toArray, by simpa using h⟩
  else .rejected .notEighteenBytes

/-- The frame with command byte `cmd` and fields `f`: the wire order of R70, each multi-byte field
little-endian (R71 read in reverse), the markers of the configuration and the checksum of R102. -/
def frameOf (c : Config) (cmd : Byte) (f : Fields) : Frame :=
  recomputeChecksum
    #v[c.startMarker, cmd, f.flags, f.seq, f.zone,
      byteOf 0 f.addr, byteOf 1 f.addr, byteOf 2 f.addr, byteOf 3 f.addr,
      lo8 f.len, hi8 f.len, f.data0, f.data1, f.data2, f.data3, 0#8, 0#8, c.endMarker]

/-- The frame that stands for an instruction (R83: `csum auto`). -/
def encodeFrame (c : Config) (i : Instr) : Frame := frameOf c (i.code c.cmdCode) i.fields

/-- The 18 bytes that stand for an instruction, in wire order (R70). -/
def encode (c : Config) (i : Instr) : List Byte := (encodeFrame c i).toList

/-- Byte k of a table word: bits 8k+7 .. 8k. -/
def tableByte (w k : Nat) : Byte := BitVec.ofNat 8 (w >>> (8 * k))

/-- The frame of a table word (log entry 10). The opcode table's bit 0 is the least significant bit of the
CMD byte, so the word is the checksum span buf[1..14], its byte k at offset 1 + k; bits at or above nbits
are 0; the markers and the checksum are what a valid frame has there. -/
def tableFrame (c : Config) (nbits w : Nat) : Frame :=
  let v := w % 2 ^ nbits
  recomputeChecksum
    #v[c.startMarker, tableByte v 0, tableByte v 1, tableByte v 2, tableByte v 3, tableByte v 4,
      tableByte v 5, tableByte v 6, tableByte v 7, tableByte v 8, tableByte v 9, tableByte v 10,
      tableByte v 11, tableByte v 12, tableByte v 13, 0#8, 0#8, c.endMarker]

/-- The instruction the decoder reads from a table word, under the default parameters; a word with a bit
outside the 112 bits of the span is no word of a frame. -/
def decodeTableWord (nbits w : Nat) : Option Instr :=
  if w % 2 ^ nbits < 2 ^ 112 then
    match decode Config.default (tableFrame Config.default nbits w).toList with
    | .instr i => some i
    | .rejected _ => none
  else none

end Sys2Proof
end

