-- ==== Sys2Proof/Machine/MemoryPort.lean ====
section
/-! DEFINITION. The Memory Access port (20_memory.md R51 to R53): the read the dispatcher drives, whose
answer is a free value, and the write, which exists in the interface and which the core never issues. -/

namespace Sys2Proof.Machine

/-- The answer to the draw-th call `MemRead(zone, addr, n)`: `Err`, or `Ok` with exactly n bytes (R52). -/
def memAnswer (draw : Nat) (zone : Byte) (addr : Word) (n : Half) : MemAnswer :=
  match Config.backendAnswer draw zone addr n with
  | some r => .ok r.toList
  | none => .err

/-- `MemRead(zone, addr, n)` (R51): one call on the port and its answer, a fresh free value. -/
def State.memRead (s : State) (zone : Byte) (addr : Word) (n : Half) : MemAnswer × State :=
  (memAnswer s.draws zone addr n, (s.call (.read zone addr n)).draw)

/-- `MemWrite(zone, addr, bytes)` (R53): what a call would leave in the port's record. No rule issues it and
no definition of the model calls it. -/
def State.memWrite (s : State) (zone : Byte) (addr : Word) (bytes : List Byte) : State :=
  (s.call (.write zone addr bytes)).draw

end Sys2Proof.Machine
end

