-- ==== Sys2Proof/Machine/MemoryCommands.lean ====
section
/-! DEFINITION. The meanings of READ_MEM and WRITE_MEM (44_dispatcher.md R132, R133). -/

namespace Sys2Proof.Machine

/-- `MemReadEv` and the copy of R132, given the answer r: on Ok the bytes go to DATA and it succeeds, on Err
DATA is unchanged and it fails. -/
def State.readDone (s : State) (zone : Byte) (addr : Word) (n : Half) : MemAnswer → State
  | .ok bytes =>
    ((s.record (.memReadEv zone addr n (.ok bytes))).setBuf (copyData 0 bytes s.buf)).respond true
  | .err => (s.record (.memReadEv zone addr n .err)).respond false

/-- READ_MEM (R132): one MemRead(ZONE, ADDR, LEN), whose answer is a free value. -/
def execReadMem (f : Fields) (s : State) : Host.Outcome State Fault Refusal :=
  .next ((s.memRead f.zone f.addr f.len).2.readDone f.zone f.addr f.len
    (s.memRead f.zone f.addr f.len).1)

/-- WRITE_MEM (R133): not wired; failure. No MemWrite is issued. -/
def execWriteMem (s : State) : Host.Outcome State Fault Refusal := .next (s.respond false)

end Sys2Proof.Machine
end

