-- ==== Sys2Proof/Machine/RegisterCommands.lean ====
section
/-! DEFINITION. The meanings of READ_REG and WRITE_REG (44_dispatcher.md R134, R135). -/

namespace Sys2Proof.Machine

/-- READ_REG (R134): not wired; failure. No register of any target is read. -/
def execReadReg (s : State) : Host.Outcome State Fault Refusal := .next (s.respond false)

/-- WRITE_REG (R135): not wired; failure. -/
def execWriteReg (s : State) : Host.Outcome State Fault Refusal := .next (s.respond false)

end Sys2Proof.Machine
end

