-- ==== Sys2Proof/Machine/SystemCommands.lean ====
section
/-! DEFINITION. The meanings of PING and RESET, and of a command that is none of the six (44_dispatcher.md
R131, R136, R137). A meaning runs on the state whose buffer holds the validated frame, and leaves the
response formed and the phase at EMIT(0). -/

namespace Sys2Proof.Machine

/-- PING (R131): no memory access; success. Its operands are ignored. -/
def execPing (s : State) : Host.Outcome State Fault Refusal := .next (s.respond true)

/-- RESET (R136): not wired; failure. It resets nothing. -/
def execReset (s : State) : Host.Outcome State Fault Refusal := .next (s.respond false)

/-- An unknown command (R137): failure. -/
def execUnknown (s : State) : Host.Outcome State Fault Refusal := .next (s.respond false)

end Sys2Proof.Machine
end

