-- ==== Sys2Proof/Machine/Dispatch.lean ====
section
/-! DEFINITION. The command dispatcher's selection (44_dispatcher.md R130), one arm per command. -/

namespace Sys2Proof.Machine

def exec (i : Instr) (s : State) : Host.Outcome State Fault Refusal :=
  match i with
  | .ping _ => Sys2Proof.Machine.execPing s
  | .readMem f => Sys2Proof.Machine.execReadMem f s
  | .writeMem _ => Sys2Proof.Machine.execWriteMem s
  | .readReg _ => Sys2Proof.Machine.execReadReg s
  | .writeReg _ => Sys2Proof.Machine.execWriteReg s
  | .reset _ => Sys2Proof.Machine.execReset s

end Sys2Proof.Machine
end

