-- ==== Sys2Proof/Machine/Parser.lean ====
section
/-! DEFINITION. The frame parser (42_parser.md): one byte per `EngineByte`, and on the 18th byte of a frame
the validator and the dispatcher within the same step. -/

namespace Sys2Proof.Machine

/-- `ParseIdle(b)` (R111). -/
def parseIdle (b : Byte) (s : State) : State :=
  if b = s.cfg.startMarker then (s.storeByte 0 b).setCursor true 1#8
  else s.record (.idleDiscard b)

/-- `Abandon(b)` (R113), the dead overflow guard: b is discarded (log entry 8). -/
def abandon (s : State) : State := s.drop .overflow

/-- `Dispatch()` (R130): the command's meaning, or the arm `otherwise` (R137). -/
def dispatch (s : State) : Host.Outcome State Fault Refusal :=
  match instrOf s.cfg.cmdCode s.buf with
  | some i => exec i s
  | none => execUnknown s

/-- `Complete()` (R114): judge the frame, then drop it or answer it. -/
def complete (s : State) : Host.Outcome State Fault Refusal :=
  match validate s.cfg s.buf with
  | .invalid cls => .next (s.drop cls)
  | .valid => dispatch s

/-- The store of R112: buf[idx] <- b, idx <- idx + 1. -/
def appendByte (b : Byte) (s : State) : State :=
  (s.storeByte s.idx.toNat b).setCursor s.started (s.idx + 1#8)

/-- `ParseCollect(b)` (R112). -/
def parseCollect (b : Byte) (s : State) : Host.Outcome State Fault Refusal :=
  if s.cfg.bufSize ≤ s.idx.toNat then .next (abandon s)
  else if (appendByte b s).idx.toNat = Config.packetSize then complete (appendByte b s)
  else .next (appendByte b s)

/-- What the parser does with the byte it popped (R110). -/
def parseByte (b : Byte) (s : State) : Host.Outcome State Fault Refusal :=
  if s.started then parseCollect b s else .next (parseIdle b s)

/-- `EngineByte` (R110). With RX empty the engine has no step and waits. -/
def engineByte (s : State) : Host.Outcome State Fault Refusal :=
  match s.rx.pop s.cfg.rxSlots with
  | none => .next s
  | some (b, rx) => parseByte b (s.setRx rx)

end Sys2Proof.Machine
end

