-- ==== Sys2Proof/Machine/Schedule.lean ====
section
/-! DEFINITION. Which step comes next (20_memory.md R58, R166): the scheduled one, and when the schedule is
used up the fair completion of 70_reset_and_hazards.md R191 (log entries 1 to 3). And how an instruction is
placed where the next step runs it (log entry 10). -/

namespace Sys2Proof.Machine

/-- The engine's turn: `EngineByte` in RUN, `EngineEmit` in EMIT(k) (R58). -/
def engineTurn (s : State) : Host.Outcome State Fault Refusal :=
  match s.phase with
  | .run => engineByte s
  | .emit k => .next (engineEmit k s)

/-- One scheduled step. -/
def takeTurn (t : Turn) (s : State) : Host.Outcome State Fault Refusal :=
  match t with
  | .linkPush b => .next (linkPush b s)
  | .linkPop => .next (linkPop s)
  | .engine => engineTurn s
  | .blockReset => .next (blockReset s)

/-- Whether the engine has an enabled step (R58, R173). -/
def State.engineEnabled (s : State) : Bool :=
  match s.phase with
  | .run => !s.rx.isEmpty
  | .emit _ => true

/-- The turn taken when nothing is scheduled: the engine while it has a step, then the link while TX holds a
byte; `none` in a quiescent state, where nothing is enabled until the link pushes (R191, R193). -/
def State.fairTurn (s : State) : Option Turn :=
  if s.engineEnabled then some .engine else if s.txReady then some .linkPop else none

/-- The turn the next step takes, and the state in which it takes it. -/
def State.nextTurn (s : State) : Option Turn × State :=
  match s.turns with
  | [] => (s.fairTurn, s)
  | t :: rest => (some t, s.setTurns rest)

/-- One step of the block: the next turn, or waiting. -/
def takeStep (s : State) : Host.Outcome State Fault Refusal :=
  match s.nextTurn with
  | (some t, u) => takeTurn t u
  | (none, u) => .next u

/-- The RX channel with b as the byte the engine pops next. -/
def Channel.withNext (n : Nat) (ch : Channel) (b : Byte) : Channel :=
  { ch with
    slots := ch.slots.set ch.tail.toNat b
    head := if ch.head = ch.tail then nextIndex n ch.tail else ch.head }

/-- The engine about to take the last byte of the frame f: bytes 0..16 collected, byte 17 next in RX, and the
next turn the engine's. -/
def State.awaiting (s : State) (f : Frame) : State :=
  { s with
    buf := f.set 17 s.buf[17]
    started := true
    idx := 17#8
    phase := .run
    rx := s.rx.withNext s.cfg.rxSlots (regEof f)
    turns := .engine :: s.turns }

end Sys2Proof.Machine
end

