-- ==== Sys2Proof/Machine/Step.lean ====
section
/-! DEFINITION. One step of the machine, and the placing of an instruction for the next step. -/

namespace Sys2Proof.Machine

/-- One atomic step (20_memory.md R58). -/
def step (s : State) : Host.Outcome State Fault Refusal := takeStep s

/-- The instruction of a table word placed so that the very next step runs it (log entry 10). -/
def State.withFetchWord (s : State) (nbits w : Nat) : State := s.awaiting (tableFrame s.cfg nbits w)

end Sys2Proof.Machine
end

