-- ==== Sys2Proof/Safety.lean ====
section
/-! DEFINITION. The terms claims are stated in: the parser states (10_state.md R23), the state invariant
(R33), quiescence (70_reset_and_hazards.md R193), what a channel holds (40_byte_channel.md R92), what an
answered frame looks like (44_dispatcher.md R138, R139, R143), and the bitwise CRC of 41_checksum.md R104. -/

namespace Sys2Proof.Machine

/-! ### Channels -/

/-- The occupancy `(head - tail) mod N` (R92). -/
def Channel.occupancy (n : Nat) (ch : Channel) : Nat := (ch.head.toNat + n - ch.tail.toNat) % n

/-- The bytes a channel holds, oldest first (R91, R92). -/
def Channel.contents (n : Nat) (ch : Channel) : List Byte :=
  (List.range (ch.occupancy n)).map (fun i => ch.slots.getD ((ch.tail.toNat + i) % n) 0#8)

/-- N slots, and both indices in 0..N-1 (R25, R33). -/
structure Channel.Wf (n : Nat) (ch : Channel) : Prop where
  slots : ch.slots.length = n
  head  : ch.head.toNat < n
  tail  : ch.tail.toNat < n

/-! ### The sequencing state -/

/-- `IDLE` (R23). -/
abbrev State.Idle (s : State) : Prop := s.started = false ∧ s.idx = 0#8

/-- `COLLECTING` (R23). -/
abbrev State.Collecting (s : State) : Prop := s.started = true ∧ 1 ≤ s.idx.toNat ∧ s.idx.toNat ≤ 17

/-- `COMPLETE` (R23). -/
abbrev State.Complete (s : State) : Prop := s.started = true ∧ s.idx = 18#8

/-- The first two lines of R33: the cursor fits the phase, and a frame being collected began with the start
marker. -/
def State.Sequenced (s : State) : Prop :=
  match s.phase with
  | .run => s.Idle ∨ (s.Collecting ∧ regSof s.buf = s.cfg.startMarker)
  | .emit _ => s.Complete

/-- The state invariant (R33), with legal parameters (R4) and storage of the sizes they give (R20, R25,
R26). -/
structure State.Inv (s : State) : Prop where
  legal     : s.cfg.Legal
  headroom  : s.headroom.length = s.cfg.bufSize - 18
  rx        : s.rx.Wf s.cfg.rxSlots
  tx        : s.tx.Wf s.cfg.txSlots
  sequenced : s.Sequenced

/-- While a response is being queued the buffer holds a valid frame whose ACK bit is set (R81). -/
def State.EmitsValid (s : State) : Prop :=
  match s.phase with
  | .run => True
  | .emit _ => validate s.cfg s.buf = .valid ∧ (regFlags s.buf).getLsbD s.cfg.flagBit.ack.val = true

/-- Quiescent: phase RUN and both channels empty (R193). -/
abbrev State.Quiescent (s : State) : Prop :=
  s.phase = .run ∧ s.rx.head = s.rx.tail ∧ s.tx.head = s.tx.tail

/-- How many response bytes the engine still has to offer. -/
def Phase.remaining : Phase → Nat
  | .run => 0
  | .emit k => 18 - k.val

/-- How many more bytes TX can take (R92). -/
def State.txRoom (s : State) : Nat := s.cfg.txSlots - 1 - s.tx.occupancy s.cfg.txSlots

/-- The events of the response bytes at offsets ks, each of them lost to a full TX (R140). -/
def State.lost (s : State) (ks : List (Fin 18)) : List Event := ks.map fun k => .txOverflow k s.buf[k]

/-- A bound on the steps that remain when nothing more is pushed: an RX byte costs at most one EngineByte, 18
EngineEmit and 18 LinkPop; a byte still to be offered two steps; a TX byte one. -/
def State.work (s : State) : Nat :=
  37 * s.rx.occupancy s.cfg.rxSlots + 2 * s.phase.remaining + s.tx.occupancy s.cfg.txSlots

/-- s and r differ at most in bytes nothing has written: the headroom, slots outside what a channel holds, and
bytes of the frame buffer at or beyond the cursor (R20, R91, R181). -/
structure State.Alike (s r : State) : Prop where
  cfg       : r.cfg = s.cfg
  started   : r.started = s.started
  idx       : r.idx = s.idx
  phase     : r.phase = s.phase
  buf       : ∀ i : Fin 18, i.val < s.idx.toNat → r.buf[i] = s.buf[i]
  rxHead    : r.rx.head = s.rx.head
  rxTail    : r.rx.tail = s.rx.tail
  rx        : r.rx.contents s.cfg.rxSlots = s.rx.contents s.cfg.rxSlots
  txHead    : r.tx.head = s.tx.head
  txTail    : r.tx.tail = s.tx.tail
  tx        : r.tx.contents s.cfg.txSlots = s.tx.contents s.cfg.txSlots
  trace     : r.trace = s.trace
  linkReply : r.linkReply = s.linkReply
  turns     : r.turns = s.turns
  draws     : r.draws = s.draws
  memCalls  : r.memCalls = s.memCalls

/-! ### Frames -/

/-- The registers no response changes (R143). -/
structure KeepsRegisters (f g : Frame) : Prop where
  sof  : regSof g = regSof f
  cmd  : regCmd g = regCmd f
  seq  : regSeq g = regSeq f
  zone : regZone g = regZone f
  addr : regAddr g = regAddr f
  len  : regLen g = regLen f
  eof  : regEof g = regEof f

/-- Bit n of the FLAGS of a response with outcome ok to request flags v (R138): ACK is 1, STATUS_ERROR tells
a failure, every other bit is the request's. -/
def answeredFlag (k : FlagBits) (ok : Bool) (v : Byte) (n : Fin 8) : Bool :=
  if n = k.ack then true else if n = k.statusError then !ok else v.getLsbD n.val

/-- t is s after its frame was answered with outcome ok, DATA as given, and the events recorded: everything
R130, R138, R139, R143 and R114 say of the state, and nothing else of it changed. The Memory Access port is
left to the statements. -/
structure State.Answered (ok : Bool) (data : Fin 4 → Byte) (events : List Event) (s t : State) : Prop where
  kept      : KeepsRegisters s.buf t.buf
  flags     : ∀ n : Fin 8,
    (regFlags t.buf).getLsbD n.val = answeredFlag s.cfg.flagBit ok (regFlags s.buf) n
  data      : ∀ i, regData t.buf i = data i
  csum      : regCsum t.buf = frameCrc t.buf
  phase     : t.phase = .emit 0
  trace     : t.trace = s.trace ++ events
  cfg       : t.cfg = s.cfg
  headroom  : t.headroom = s.headroom
  started   : t.started = s.started
  idx       : t.idx = s.idx
  rx        : t.rx = s.rx
  tx        : t.tx = s.tx
  linkReply : t.linkReply = s.linkReply
  turns     : t.turns = s.turns

/-! ### Events, calls and turns -/

/-- Whether an event is a formed response (R160). -/
def Event.isResponse : Event → Bool
  | .response _ _ => true
  | _ => false

/-- Whether an event is a byte lost to a full RX (R58, R160). -/
def Event.isRxOverflow : Event → Bool
  | .rxOverflow _ => true
  | _ => false

/-- Whether an event is a drop by the overflow guard (R113, R160). -/
def Event.isOverflowDrop : Event → Bool
  | .frameDrop .overflow => true
  | _ => false

/-- The error classes (R161). -/
inductive ErrorClass where
  /-- Bad markers, or LEN above 4 (R162). -/
  | framingError
  /-- A checksum mismatch (R163). -/
  | integrityError
  /-- An unknown or unwired command, or a read the backend refuses (R164). -/
  | commandError
  /-- A byte met a full channel (R165). -/
  | channelOverflow
  deriving DecidableEq, Repr

/-- The model-only code of a class, which never reaches the wire (R161). -/
def ErrorClass.code : ErrorClass → Nat
  | .framingError => 1
  | .integrityError => 2
  | .commandError => 3
  | .channelOverflow => 4

/-- The error class an event records (R161); the dead guard's drop is framing-like (R162). -/
def Event.errorClass : Event → Option ErrorClass
  | .rxOverflow _ => some .channelOverflow
  | .idleDiscard _ => none
  | .frameDrop .framingMarker => some .framingError
  | .frameDrop .framingLength => some .framingError
  | .frameDrop .integrity => some .integrityError
  | .frameDrop .overflow => some .framingError
  | .memReadEv _ _ _ _ => none
  | .response _ ok => if ok then none else some .commandError
  | .txOverflow _ _ => some .channelOverflow
  | .txByte _ => none

/-- Whether a call on the port is a MemWrite (R53). -/
def MemCall.isWrite : MemCall → Bool
  | .read _ _ _ => false
  | .write _ _ _ => true

/-- Whether a turn is the link's (R7). -/
def Turn.isLink : Turn → Bool
  | .linkPush _ => true
  | .linkPop => true
  | .engine => false
  | .blockReset => false

/-- The state in which the engine judges a frame: s after its turn was taken from the schedule (u), the byte b
popped (rx) and stored at offset 17 (R110, R112). -/
def State.collected (u : State) (b : Byte) (rx : Channel) : State :=
  { u with rx := rx, buf := u.buf.set 17 b, idx := 18#8 }

/-- The next step of s is the engine's, in the state u, and takes the byte b with the cursor at 17: the one
moment at which a frame is judged (R114). -/
structure State.Completing (s u : State) (b : Byte) (rx : Channel) : Prop where
  turn    : s.nextTurn = (some .engine, u)
  phase   : u.phase = .run
  started : u.started = true
  idx     : u.idx = 17#8
  storage : 18 ≤ u.cfg.bufSize
  byte    : u.rx.pop u.cfg.rxSlots = some (b, rx)

/-! ### The bitwise CRC of R104 -/

/-- One bit of the CRC with polynomial 0x1021, most significant bit first (R104). -/
def crcBit (crc : Half) : Half :=
  if crc.getLsbD 15 then (crc <<< 1) ^^^ 0x1021#16 else crc <<< 1

/-- One byte: XORed into the high byte, then eight bits (R104: no reflection). -/
def crcBitwiseStep (crc : Half) (b : Byte) : Half :=
  crcBit (crcBit (crcBit (crcBit (crcBit (crcBit (crcBit (crcBit (crc ^^^ (b.setWidth 16 <<< 8)))))))))

/-- The CRC with polynomial 0x1021, initial value 0xFFFF, no reflection and no final XOR (R104). -/
def crcBitwise (bytes : List Byte) : Half := bytes.foldl crcBitwiseStep 0xFFFF#16

end Sys2Proof.Machine
end

