-- ==== Sys2Proof/Certificates/Slice0/Obligations.lean ====
section
/-! DEFINITION. The statements of this model, from the spec's numbered rules. Each docstring names the rules
it formalises; where a clause rests on a choice of the model, it names the log entry. -/

open Sys2Proof Sys2Proof.Machine

/-! ### Encoding -/

/-- R70, R71, R73, R74: decoding the encoding of a well-formed instruction gives it back, for every legal
choice of the parameters and every value of every field. -/
def Obligations.DecodeOfEncodeIsInstruction : Prop :=
  ∀ (c : Config) (i : Instr), c.Legal → i.wf = true → decode c (encode c i) = .instr i

/-- R70, R71, R82: bytes that decode to an instruction are its encoding, and it is well formed: no byte of a
valid frame is lost. -/
def Obligations.EncodeOfDecodeIsBytes : Prop :=
  ∀ (c : Config) (bytes : List Byte) (i : Instr), decode c bytes = .instr i →
    encode c i = bytes ∧ i.wf = true

/-- R131 to R136, R74: one example frame of the spec for each command decodes to that command with the
fields its bytes spell. -/
def Obligations.DecodeOfSpecFrames : Prop :=
  decode Config.default [0xAA, 0x01, 0, 0, 0, 0, 0, 0, 0, 0, 0, 0, 0, 0, 0, 0x0B, 0xD2, 0x55] =
      .instr (.ping ⟨0, 0, 0, 0, 0, 0, 0, 0, 0⟩) ∧
    decode Config.default
        [0xAA, 0x02, 0, 0, 0, 0, 0, 0, 0x20, 4, 0, 0, 0, 0, 0, 0xFF, 0x37, 0x55] =
      .instr (.readMem ⟨0, 0, 0, 0x20000000, 4, 0, 0, 0, 0⟩) ∧
    decode Config.default
        [0xAA, 0x03, 0, 0, 0, 0, 0, 0, 0x20, 4, 0, 0xDE, 0xAD, 0xBE, 0xEF, 0xC9, 0x88, 0x55] =
      .instr (.writeMem ⟨0, 0, 0, 0x20000000, 4, 0xDE, 0xAD, 0xBE, 0xEF⟩) ∧
    decode Config.default [0xAA, 0x04, 0, 0, 0, 0, 0, 0, 0, 0, 0, 0, 0, 0, 0, 0xCF, 0x54, 0x55] =
      .instr (.readReg ⟨0, 0, 0, 0, 0, 0, 0, 0, 0⟩) ∧
    decode Config.default [0xAA, 0x05, 0, 0, 0, 0, 0, 0, 0, 0, 0, 0, 0, 0, 0, 0xAE, 0x2F, 0x55] =
      .instr (.writeReg ⟨0, 0, 0, 0, 0, 0, 0, 0, 0⟩) ∧
    decode Config.default [0xAA, 0x06, 0, 0, 0, 0, 0, 0, 0, 0, 0, 0, 0, 0, 0, 0x0D, 0xA2, 0x55] =
      .instr (.reset ⟨0, 0, 0, 0, 0, 0, 0, 0, 0⟩)

/-- R74, R80, R125: a frame with good markers, LEN and checksum is valid whatever its command byte and other
fields; a command byte that is none of the six codes decodes as unknown, by name, not as another command. -/
def Obligations.UnknownCommandDecodesByName : Prop :=
  ∀ (c : Config) (cmd : Byte) (f : Fields), f.wf = true → cmd ∉ c.cmdCode.toList →
    decode c (frameOf c cmd f).toList = .rejected (.unknownCommand cmd)

/-- R71: every field is the stated bytes of the frame, the multi-byte ones little-endian and unsigned. -/
def Obligations.FieldsAreLittleEndian : Prop :=
  ∀ f : Frame, regCmd f = f[1] ∧ regFlags f = f[2] ∧ regSeq f = f[3] ∧ regZone f = f[4] ∧
    (regAddr f).toNat = f[5].toNat + 256 * f[6].toNat + 65536 * f[7].toNat + 16777216 * f[8].toNat ∧
    (regLen f).toNat = f[9].toNat + 256 * f[10].toNat ∧
    regData f 0 = f[11] ∧ regData f 1 = f[12] ∧ regData f 2 = f[13] ∧ regData f 3 = f[14] ∧
    (regCsum f).toNat = f[15].toNat + 256 * f[16].toNat ∧
    ∀ c : Half, lo8 c = (writeCsum c f)[15] ∧ hi8 c = (writeCsum c f)[16] ∧ regCsum (writeCsum c f) = c

/-! ### Checksum -/

/-- R100: x never exceeds 8 bits, so the step is the same whether x is held in 8 or in 16 bits. -/
def Obligations.CrcStepSameInEightBits : Prop :=
  ∀ (crc : Half) (b : Byte), (crcFold crc b).toNat ≤ 0xFF ∧
    crc16Step crc b =
      (let x8 : Byte := (crc >>> 8).setWidth 8 ^^^ b
       let x : Half := (x8 ^^^ (x8 >>> 4)).setWidth 16
       (crc <<< 8) ^^^ (x <<< 12) ^^^ (x <<< 5) ^^^ x)

/-- R104: the checksum of R101 is the bitwise CRC with polynomial 0x1021, initial value 0xFFFF, no
reflection and no final XOR. -/
def Obligations.CrcIsBitwisePolynomial : Prop :=
  ∀ bytes : List Byte, crc16 bytes = crcBitwise bytes

/-- R163: every change of one byte of buf[1..14] changes the frame checksum, and every change of one byte of
buf[1..16] of a valid frame is caught, as a length error or as an integrity error. -/
def Obligations.SingleByteCorruptionCaught : Prop :=
  (∀ (f : Frame) (i : Fin 18) (b : Byte), 1 ≤ i.val → i.val ≤ 14 → b ≠ f[i] →
      frameCrc (f.set i b) ≠ frameCrc f) ∧
    ∀ (c : Config) (f : Frame) (i : Fin 18) (b : Byte), validate c f = .valid → 1 ≤ i.val →
      i.val ≤ 16 → b ≠ f[i] →
      validate c (f.set i b) = .invalid .integrity ∨
        (validate c (f.set i b) = .invalid .framingLength ∧ (i.val = 9 ∨ i.val = 10))

/-! ### Byte channels -/

/-- R90: Push is Full, with nothing changed, when the next index after head is tail; else it writes slot head
alone and advances head modulo N, and tail stays. -/
def Obligations.PushWritesOneSlotOrIsFull : Prop :=
  ∀ (n : Nat) (ch : Channel) (b : Byte), n ≤ 256 → ch.Wf n →
    ((ch.head.toNat + 1) % n = ch.tail.toNat → ch.push n b = none) ∧
    ((ch.head.toNat + 1) % n ≠ ch.tail.toNat → ∃ ch', ch.push n b = some ch' ∧
      ch'.slots[ch.head.toNat]? = some b ∧ ch'.slots.length = ch.slots.length ∧
      (∀ j : Nat, j ≠ ch.head.toNat → ch'.slots[j]? = ch.slots[j]?) ∧
      ch'.head.toNat = (ch.head.toNat + 1) % n ∧ ch'.tail = ch.tail)

/-- R90, R91, R59: over what a channel of N slots holds, Push and Pop are a first-in first-out queue of at
most N - 1 bytes. -/
def Obligations.ChannelRefinesBoundedQueue : Prop :=
  ∀ (n : Nat) (ch : Channel), 2 ≤ n → n ≤ 256 → ch.Wf n →
    (∀ b : Byte, (ch.contents n).length = n - 1 ∧ ch.push n b = none ∨
      (ch.contents n).length < n - 1 ∧
        ∃ ch', ch.push n b = some ch' ∧ ch'.Wf n ∧ ch'.contents n = ch.contents n ++ [b]) ∧
    (ch.contents n = [] ∧ ch.pop n = none ∨
      ∃ b ch', ch.pop n = some (b, ch') ∧ ch'.Wf n ∧ ch.contents n = b :: ch'.contents n)

/-- R92: occupancy is (head - tail) mod N and ranges over 0..N-1; head = tail means empty, where Pop has no
byte; the index after head being tail means full, where no Push has room, at N - 1 bytes. -/
def Obligations.OccupancyRange : Prop :=
  ∀ (n : Nat) (ch : Channel), 1 ≤ n → n ≤ 256 → ch.Wf n →
    (ch.occupancy n : Int) = ((ch.head.toNat : Int) - (ch.tail.toNat : Int)) % (n : Int) ∧
      ch.occupancy n ≤ n - 1 ∧
      (ch.occupancy n = 0 ↔ ch.head = ch.tail) ∧ (ch.pop n = none ↔ ch.head = ch.tail) ∧
      (ch.occupancy n = n - 1 ↔ (ch.head.toNat + 1) % n = ch.tail.toNat) ∧
      ∀ b : Byte, ch.push n b = none ↔ (ch.head.toNat + 1) % n = ch.tail.toNat

/-- R97, R90: M ≥ N - 1 pushes into an empty RX with no pop between leave occupancy N - 1, holding the first
N - 1 bytes; each of the last M - (N - 1) pushes is Full and is recorded as RxOverflow. The schedule is log
entry 1. -/
def Obligations.BurstFillsRxAndDropsRest : Prop :=
  ∀ (s : State) (bytes : List Byte) (rest : List Turn), s.Inv → s.rx.head = s.rx.tail →
    s.cfg.rxSlots - 1 ≤ bytes.length → s.turns = bytes.map Turn.linkPush ++ rest →
    ∃ t, core.run bytes.length s = .next t ∧ t.rx.occupancy s.cfg.rxSlots = s.cfg.rxSlots - 1 ∧
      t.rx.contents s.cfg.rxSlots = bytes.take (s.cfg.rxSlots - 1) ∧
      t.trace = s.trace ++ (bytes.drop (s.cfg.rxSlots - 1)).map Event.rxOverflow ∧ t.turns = rest

/-- R27, R96: a successful Push makes the level tx_ready 1; the Pop that empties the channel, and no other,
makes it 0; and no step of the engine, the producer, clears it. -/
def Obligations.TxReadyArmsAndDisarms : Prop :=
  (∀ s : State, s.txReady = true ↔ s.tx.head ≠ s.tx.tail) ∧
    (∀ (s : State) (b : Byte) (ch : Channel), s.cfg.Legal → s.tx.Wf s.cfg.txSlots →
      s.tx.push s.cfg.txSlots b = some ch → (s.setTx ch).txReady = true) ∧
    (∀ (s : State) (b : Byte) (ch : Channel), s.cfg.Legal → s.tx.Wf s.cfg.txSlots →
      s.tx.pop s.cfg.txSlots = some (b, ch) →
      ((s.setTx ch).txReady = false ↔ s.tx.occupancy s.cfg.txSlots = 1)) ∧
    ∀ (s u t : State), s.Inv → s.nextTurn = (some .engine, u) → step s = .next t → s.txReady = true →
      t.txReady = true

/-! ### Parser -/

/-- R111, R110: in IDLE the engine's step pops one byte; the start marker is stored at offset 0 and opens a
frame, every other byte is discarded and recorded. -/
def Obligations.IdleByteOpensFrameOrIsDiscarded : Prop :=
  ∀ (s u : State) (b : Byte) (rx : Channel), s.nextTurn = (some .engine, u) → u.phase = .run →
    u.started = false → u.rx.pop u.cfg.rxSlots = some (b, rx) →
    step s = .next
      (if b = u.cfg.startMarker then
        { u with rx := rx, buf := u.buf.set 0 b, started := true, idx := 1#8 }
       else { u with rx := rx, trace := u.trace ++ [.idleDiscard b] })

/-- R112, R115, R116, R117: in COLLECTING, before the 18th byte, every byte is stored at the cursor whatever its
value, the cursor advances, and nothing else happens: a start or end marker is data, and no response is
formed. -/
def Obligations.CollectedByteIsData : Prop :=
  ∀ (s u : State) (b : Byte) (rx : Channel) (i : Fin 17), s.nextTurn = (some .engine, u) →
    u.phase = .run → u.started = true → u.idx.toNat = i.val → 18 ≤ u.cfg.bufSize →
    u.rx.pop u.cfg.rxSlots = some (b, rx) →
    step s = .next
      { u with rx := rx, buf := u.buf.set i.val b, idx := BitVec.ofNat 8 (i.val + 1) }

/-- R110, R117, R173: with RX empty in RUN the engine's turn does nothing: a partial frame waits. That
a scheduled turn is then only used up is the model's choice (log entry 3). -/
def Obligations.EngineWaitsOnEmptyRx : Prop :=
  ∀ (s u : State), s.nextTurn = (some .engine, u) → u.phase = .run → u.rx.head = u.rx.tail →
    step s = .next u

/-- R113: a cursor at or beyond BUF_SIZE abandons the frame, discards the byte and records
FrameDrop(Overflow); and no state of the invariant reaches the guard. That the guard has R113's effect, and no
fault as 93_implementation_defined.md U16 suggests, is the model's choice (log entry 8); that the byte is
discarded is the spec's own choice (D12). -/
def Obligations.OverflowGuardIsDead : Prop :=
  (∀ (s u : State) (b : Byte) (rx : Channel), s.nextTurn = (some .engine, u) → u.phase = .run →
    u.started = true → u.cfg.bufSize ≤ u.idx.toNat → u.rx.pop u.cfg.rxSlots = some (b, rx) →
    step s = .next
      { u with
        rx := rx, started := false, idx := 0#8, trace := u.trace ++ [.frameDrop .overflow] }) ∧
    ∀ s t : State, s.Inv → step s = .next t →
      t.trace.countP Event.isOverflowDrop = s.trace.countP Event.isOverflowDrop

/-- R114, R124: when the 18th byte completes a frame the validator rejects, the step drops it: the event, the
cursor back to IDLE with phase RUN, no response, no read, nothing pushed to TX. -/
def Obligations.InvalidFrameIsDroppedSilently : Prop :=
  ∀ (s u : State) (b : Byte) (rx : Channel) (cls : DropClass), s.Completing u b rx →
    validate u.cfg (u.buf.set 17 b) = .invalid cls →
    step s = .next
      { u.collected b rx with
        started := false, idx := 0#8, trace := u.trace ++ [.frameDrop cls] }

/-- R114, R130: a step runs the decoded instruction. When the bytes collected, the one popped included, decode
to i, the step is exec of i on the state that holds the whole frame, the turn and the byte taken. -/
def Obligations.StepRunsDecodedInstruction : Prop :=
  ∀ (s u : State) (b : Byte) (rx : Channel) (i : Instr), s.Completing u b rx →
    decode u.cfg (u.buf.set 17 b).toList = .instr i → step s = exec i (u.collected b rx)

/-- R137: when they decode as an unknown command, the step answers the frame with a failure and reads
nothing. -/
def Obligations.UnknownCommandIsAnswered : Prop :=
  ∀ (s u : State) (b : Byte) (rx : Channel) (cmd : Byte), s.Completing u b rx → u.cfg.Legal →
    decode u.cfg (u.buf.set 17 b).toList = .rejected (.unknownCommand cmd) →
    ∃ t, step s = .next t ∧
      (u.collected b rx).Answered false (regData (u.collected b rx).buf) [.response cmd false] t ∧
      t.memCalls = u.memCalls ∧ t.draws = u.draws

/-- R117, R114, R142: a response is formed only in the step that completes a frame, and then exactly one. -/
def Obligations.ResponseOnlyWhenFrameCompletes : Prop :=
  ∀ s t : State, step s = .next t →
    ∃ events, t.trace = s.trace ++ events ∧
      (events.countP Event.isResponse = 0 ∨
        events.countP Event.isResponse = 1 ∧ s.phase = .run ∧ s.started = true ∧
          s.idx = 17#8 ∧ t.phase = .emit 0)

/-- R118: from COLLECTING or COMPLETE the cursor returns to IDLE on three paths only: a block reset, the drop
of a complete invalid frame, and the end of a response; in a state of the invariant the overflow guard is no
fourth. -/
def Obligations.CursorReturnsToIdleOnThreePaths : Prop :=
  ∀ (s u t : State) (turn : Turn), s.Inv → s.nextTurn = (some turn, u) → step s = .next t →
    s.started = true → t.started = false →
    t.idx = 0#8 ∧
      (turn = .blockReset ∨
        (∃ b rx cls, s.Completing u b rx ∧ validate u.cfg (u.buf.set 17 b) = .invalid cls) ∨
        (∃ k, turn = .engine ∧ s.phase = .emit k ∧ (k = 17 ∨ s.cfg.txFullPolicy = .abortRest)))

/-! ### Validator -/

/-- R120 to R123, R166: the checks in order, the first failing one naming the class. -/
def Obligations.FirstFailingCheckNamesTheClass : Prop :=
  ∀ (c : Config) (f : Frame),
    (validate c f = .invalid .framingMarker ↔ (f[0] ≠ c.startMarker ∨ f[17] ≠ c.endMarker)) ∧
    (validate c f = .invalid .framingLength ↔
      (f[0] = c.startMarker ∧ f[17] = c.endMarker ∧ 4 < f[9].toNat + 256 * f[10].toNat)) ∧
    (validate c f = .invalid .integrity ↔
      (f[0] = c.startMarker ∧ f[17] = c.endMarker ∧ f[9].toNat + 256 * f[10].toNat ≤ 4 ∧
        frameCrc f ≠ le16 f[15] f[16])) ∧
    (validate c f = .valid ↔
      (f[0] = c.startMarker ∧ f[17] = c.endMarker ∧ f[9].toNat + 256 * f[10].toNat ≤ 4 ∧
        frameCrc f = le16 f[15] f[16]))

/-- R125, R73: with the markers, LEN ≤ 4 and the checksum right, every value of CMD, FLAGS, SEQ, ZONE, ADDR and
DATA passes validation; with LEN > 4 none does. -/
def Obligations.ValidatorIgnoresOtherFields : Prop :=
  ∀ (c : Config) (cmd : Byte) (f : Fields),
    validate c (frameOf c cmd f) =
      if f.len.toNat ≤ 4 then .valid else .invalid .framingLength

/-! ### Commands -/

/-- R131, R138, R139, R143: PING completes in every state: success, no memory access, DATA kept. -/
def Obligations.PingAnswersSuccess : Prop :=
  ∀ (f : Fields) (s : State), s.cfg.Legal →
    ∃ t, exec (.ping f) s = .next t ∧
      s.Answered true (regData s.buf) [.response (regCmd s.buf) true] t ∧
      t.memCalls = s.memCalls ∧ t.draws = s.draws

/-- R132, R51, R52, R138, R139, R143: READ_MEM completes in every state, whatever the backend answers: one
MemRead(ZONE, ADDR, LEN); on Ok the bytes are in DATA[0..LEN-1], DATA[LEN..3] keep their values and the
response is a success; on Err DATA is unchanged and the response is a failure. The answer is a free value
(log entry 4) and the claim holds for every answer; the record of the call is log entry 13. -/
def Obligations.ReadMemAnswersWhatTheBackendSays : Prop :=
  ∀ (f : Fields) (s : State), s.cfg.Legal →
    ∃ t, exec (.readMem f) s = .next t ∧
      t.memCalls = s.memCalls ++ [.read f.zone f.addr f.len] ∧ t.draws = s.draws + 1 ∧
      match Config.backendAnswer s.draws f.zone f.addr f.len with
      | some r =>
        s.Answered true
          (fun i => if h : i.val < f.len.toNat then r[i.val] else regData s.buf i)
          [.memReadEv f.zone f.addr f.len (.ok r.toList), .response (regCmd s.buf) true] t
      | none =>
        s.Answered false (regData s.buf)
          [.memReadEv f.zone f.addr f.len .err, .response (regCmd s.buf) false] t

/-- R133, R53, R138, R139, R143: WRITE_MEM completes in every state: failure, no MemWrite, DATA echoed. -/
def Obligations.WriteMemAnswersFailure : Prop :=
  ∀ (f : Fields) (s : State), s.cfg.Legal →
    ∃ t, exec (.writeMem f) s = .next t ∧
      s.Answered false (regData s.buf) [.response (regCmd s.buf) false] t ∧
      t.memCalls = s.memCalls ∧ t.draws = s.draws

/-- R134, R135, R138, R139, R143: READ_REG and WRITE_REG complete in every state: failure, nothing read,
nothing written outside the frame buffer. -/
def Obligations.RegisterCommandsAnswerFailure : Prop :=
  ∀ (f : Fields) (s : State) (i : Instr), i = .readReg f ∨ i = .writeReg f → s.cfg.Legal →
    ∃ t, exec i s = .next t ∧
      s.Answered false (regData s.buf) [.response (regCmd s.buf) false] t ∧
      t.memCalls = s.memCalls ∧ t.draws = s.draws

/-- R136, R183: RESET completes in every state: failure; it resets nothing, and what RX and TX hold stays
queued. -/
def Obligations.ResetCommandResetsNothing : Prop :=
  ∀ (f : Fields) (s : State), s.cfg.Legal →
    ∃ t, exec (.reset f) s = .next t ∧
      s.Answered false (regData s.buf) [.response (regCmd s.buf) false] t ∧
      t.rx = s.rx ∧ t.tx = s.tx ∧ t.memCalls = s.memCalls ∧ t.draws = s.draws

/-- R138: SetResponseFlags, bit by bit, for every outcome and every request value of FLAGS. -/
def Obligations.ResponseFlagsBitByBit : Prop :=
  ∀ (k : FlagBits) (ok : Bool) (v : Byte), k.ack ≠ k.statusError →
    (responseFlags k ok v).getLsbD k.ack.val = true ∧
    (responseFlags k ok v).getLsbD k.statusError.val = !ok ∧
    ∀ n : Fin 8, n ≠ k.ack → n ≠ k.statusError →
      (responseFlags k ok v).getLsbD n.val = v.getLsbD n.val

/-- R81, R80, R189: the response to a valid frame, of a command or of an unknown code, is itself a valid frame with
ACK set, and decodes to the same command or unknown code: an echoed response is dispatched again. -/
def Obligations.ResponseIsAValidFrame : Prop :=
  ∀ s t : State, s.cfg.Legal →
    (∀ i : Instr, decode s.cfg s.buf.toList = .instr i → exec i s = .next t →
      ∃ j, decode t.cfg t.buf.toList = .instr j ∧ j.code s.cfg.cmdCode = i.code s.cfg.cmdCode ∧
        (regFlags t.buf).getLsbD s.cfg.flagBit.ack.val = true) ∧
    (∀ cmd : Byte, decode s.cfg s.buf.toList = .rejected (.unknownCommand cmd) → dispatch s = .next t →
      decode t.cfg t.buf.toList = .rejected (.unknownCommand cmd) ∧
        (regFlags t.buf).getLsbD s.cfg.flagBit.ack.val = true)

/-- R57: a step makes a MemRead only when it completes a valid READ_MEM frame, and then exactly one, of that
frame's ZONE, ADDR and LEN. -/
def Obligations.OnlyReadMemReads : Prop :=
  ∀ s t : State, step s = .next t →
    t.memCalls = s.memCalls ∨
      ∃ u b rx f, s.Completing u b rx ∧ decode u.cfg (u.buf.set 17 b).toList = .instr (.readMem f) ∧
        t.memCalls = s.memCalls ++ [.read f.zone f.addr f.len]

/-- R53: no step issues a MemWrite. -/
def Obligations.NoStepWritesTargetMemory : Prop :=
  ∀ s t : State, step s = .next t →
    t.memCalls.filter MemCall.isWrite = s.memCalls.filter MemCall.isWrite

/-! ### Queuing the response -/

/-- R140, R141: in EMIT(k) the engine's step offers buf[k] to TX once. If TX takes it, it is queued; if TX is
full, it is lost and recorded. After byte 17, or after a loss under AbortRest, the response ends; otherwise
the phase is EMIT(k + 1). -/
def Obligations.EmitOffersOneByte : Prop :=
  ∀ (s u : State) (k : Fin 18), s.nextTurn = (some .engine, u) → u.phase = .emit k →
    ∃ t, step s = .next t ∧
      (match u.tx.push u.cfg.txSlots u.buf[k] with
        | some tx => t.tx = tx ∧ t.trace = u.trace
        | none => t.tx = u.tx ∧ t.trace = u.trace ++ [.txOverflow k u.buf[k]]) ∧
      (if k.val = 17 ∨ (u.tx.push u.cfg.txSlots u.buf[k] = none ∧ u.cfg.txFullPolicy = .abortRest) then
        t.phase = .run ∧ t.Idle
      else t.phase = .emit (k + 1) ∧ t.started = u.started ∧ t.idx = u.idx) ∧
      t.cfg = u.cfg ∧ t.buf = u.buf ∧ t.headroom = u.headroom ∧ t.rx = u.rx ∧
      t.linkReply = u.linkReply ∧ t.turns = u.turns ∧ t.draws = u.draws ∧ t.memCalls = u.memCalls

/-- R140, R141, R142, R145: a response that finds room for 18 bytes in TX is queued whole, in offset order,
after what TX held, in 18 engine turns that take no RX byte; the engine is then in RUN and IDLE. The schedule is
log entry 1. -/
def Obligations.ResponseIsQueuedWholeInOrder : Prop :=
  ∀ (s : State) (rest : List Turn), s.Inv → s.phase = .emit 0 →
    s.tx.occupancy s.cfg.txSlots + 18 ≤ s.cfg.txSlots - 1 →
    s.turns = List.replicate 18 .engine ++ rest →
    ∃ t, core.run 18 s = .next t ∧
      t.tx.contents s.cfg.txSlots = s.tx.contents s.cfg.txSlots ++ s.buf.toList ∧
      t.phase = .run ∧ t.Idle ∧ t.rx = s.rx ∧ t.buf = s.buf ∧ t.trace = s.trace ∧ t.turns = rest

/-- R140, R95: under DropContinue a response always ends after 18 engine turns, whatever room TX has: every byte
is offered once and none twice. The bytes there is room for are queued, in order, after what TX held; each of the
others is lost and recorded, in order. The schedule is log entry 1. -/
def Obligations.DropContinueOffersEveryByteOnce : Prop :=
  ∀ (s : State) (rest : List Turn), s.Inv → s.phase = .emit 0 → s.cfg.txFullPolicy = .dropContinue →
    s.turns = List.replicate 18 .engine ++ rest →
    ∃ t, core.run 18 s = .next t ∧ t.phase = .run ∧ t.Idle ∧ t.turns = rest ∧
      t.tx.contents s.cfg.txSlots = s.tx.contents s.cfg.txSlots ++ s.buf.toList.take s.txRoom ∧
      t.trace = s.trace ++ s.lost ((List.finRange 18).drop s.txRoom)

/-- R140: under AbortRest the first byte TX has no room for ends the response: it alone is recorded as lost, and no
later byte is offered. The schedule is log entry 1. -/
def Obligations.AbortRestEndsAtFirstLostByte : Prop :=
  ∀ (s : State) (k : Fin 18) (rest : List Turn), s.Inv → s.phase = .emit 0 →
    s.cfg.txFullPolicy = .abortRest → s.txRoom = k.val →
    s.turns = List.replicate (k.val + 1) .engine ++ rest →
    ∃ t, core.run (k.val + 1) s = .next t ∧ t.phase = .run ∧ t.Idle ∧ t.turns = rest ∧
      t.tx.contents s.cfg.txSlots = s.tx.contents s.cfg.txSlots ++ s.buf.toList.take k.val ∧
      t.trace = s.trace ++ [.txOverflow k s.buf[k]]

/-! ### The link, the agents -/

/-- R58, R90: LinkPush(b) pushes to RX, or drops b and records RxOverflow; the port answers Ok or Full; nothing
else changes. -/
def Obligations.LinkPushPushesOrRecordsOverflow : Prop :=
  ∀ (s : State) (b : Byte) (rest : List Turn), s.turns = .linkPush b :: rest →
    step s = .next
      (if (s.rx.head.toNat + 1) % s.cfg.rxSlots = s.rx.tail.toNat then
        { s with
          turns := rest, linkReply := some .pushFull, trace := s.trace ++ [.rxOverflow b] }
       else
        { s with
          turns := rest, linkReply := some .pushOk,
          rx :=
            ⟨s.rx.slots.set s.rx.head.toNat b,
              BitVec.ofNat 8 ((s.rx.head.toNat + 1) % s.cfg.rxSlots), s.rx.tail⟩ })

/-- R58, R91: LinkPop hands the oldest TX byte to the host and records it; on an empty TX the port answers Empty;
nothing else changes. That a pop may be scheduled on an empty TX is the model's choice (log entry 3). -/
def Obligations.LinkPopDeliversOldestByte : Prop :=
  ∀ (s : State) (rest : List Turn), s.turns = .linkPop :: rest →
    step s = .next
      (if s.tx.head = s.tx.tail then { s with turns := rest, linkReply := some .popEmpty }
       else
        { s with
          turns := rest, linkReply := some (.popByte (s.tx.slots.getD s.tx.tail.toNat 0#8)),
          trace := s.trace ++ [.txByte (s.tx.slots.getD s.tx.tail.toNat 0#8)],
          tx := ⟨s.tx.slots, s.tx.head, BitVec.ofNat 8 ((s.tx.tail.toNat + 1) % s.cfg.txSlots)⟩ })

/-- R25, R26, R93, R94, R171: each side owns one index of each channel. A link step leaves rx_tail, tx_head,
the TX slots, the buffer, the cursor and the phase alone; an engine step leaves rx_head, the RX slots and
tx_tail alone. -/
def Obligations.EachAgentKeepsToItsOwnIndices : Prop :=
  ∀ s u t : State, ∀ turn : Turn, s.nextTurn = (some turn, u) → step s = .next t →
    (turn.isLink = true →
      t.rx.tail = s.rx.tail ∧ t.tx.head = s.tx.head ∧ t.tx.slots = s.tx.slots ∧ t.buf = s.buf ∧
        t.headroom = s.headroom ∧ t.started = s.started ∧ t.idx = s.idx ∧ t.phase = s.phase ∧
        t.memCalls = s.memCalls) ∧
    (turn = .engine →
      t.rx.head = s.rx.head ∧ t.rx.slots = s.rx.slots ∧ t.tx.tail = s.tx.tail ∧
        t.linkReply = s.linkReply)

/-- R58, R59, R166: the order of an engine step and of a push that finds room does not matter, when the engine
has a step in either order. -/
def Obligations.EngineAndPushCommute : Prop :=
  ∀ (s : State) (b : Byte) (rest : List Turn), s.Inv → s.engineEnabled = true →
    s.rx.occupancy s.cfg.rxSlots < s.cfg.rxSlots - 1 →
    ∃ t, core.run 2 (s.setTurns (.engine :: .linkPush b :: rest)) = .next t ∧
      core.run 2 (s.setTurns (.linkPush b :: .engine :: rest)) = .next t

/-! ### Reset -/

/-- R181, R182: what the spec gives for reset, for every legal choice of the parameters, and of State.reset with
the defaults of R4. -/
def Obligations.ResetValues : Prop :=
  State.reset = State.resetWith Config.default ∧ Config.default.Legal ∧
    ∀ c : Config, c.Legal → (State.resetWith c).Idle ∧ (State.resetWith c).phase = .run ∧
      (State.resetWith c).rx.head = 0#8 ∧ (State.resetWith c).rx.tail = 0#8 ∧
      (State.resetWith c).tx.head = 0#8 ∧ (State.resetWith c).tx.tail = 0#8 ∧
      (State.resetWith c).txReady = false ∧ (State.resetWith c).engineEnabled = false

/-- R180, R181: a block reset, in any state, gives every piece of the block's state its reset value in one step
and aborts what was under way; target memory is not touched. That the parameters and the observations stay
is the model's choice (log entries 6, 13). -/
def Obligations.BlockResetResetsEverything : Prop :=
  ∀ (s : State) (rest : List Turn), s.turns = .blockReset :: rest →
    ∃ t, step s = .next t ∧ t.Idle ∧ t.phase = .run ∧ t.rx.head = 0#8 ∧ t.rx.tail = 0#8 ∧
      t.tx.head = 0#8 ∧ t.tx.tail = 0#8 ∧ t.txReady = false ∧ t.cfg = s.cfg ∧
      t.memCalls = s.memCalls ∧ t.trace = s.trace ∧ t.turns = rest

/-- R182, R193: a quiescent state waits: with nothing scheduled no step of the block is enabled, and after a
link push into it the engine has one. That the machine's step then waits, answering the same state, is the
model's choice (log entry 2). -/
def Obligations.QuiescentStateWaits : Prop :=
  ∀ s : State, s.Inv → s.Quiescent → s.turns = [] →
    step s = .next s ∧
      ∀ b : Byte, ∃ t, step (s.setTurns [.linkPush b]) = .next t ∧ t.engineEnabled = true

/-! ### The whole machine -/

/-- R33: the state after reset meets the invariant, whatever the legal parameters. -/
def Obligations.ResetMeetsInvariant : Prop :=
  State.reset.Inv ∧ ∀ c : Config, c.Legal → (State.resetWith c).Inv

/-- R33: every step keeps the invariant. -/
def Obligations.StepKeepsInvariant : Prop :=
  ∀ s t : State, s.Inv → step s = .next t → t.Inv

/-- R81, R140, R143: while a response is being queued, the buffer holds a valid frame whose ACK bit is set:
every step keeps that. -/
def Obligations.StepKeepsEmittedFrameValid : Prop :=
  ∀ s t : State, s.Inv → s.EmitsValid → step s = .next t → t.EmitsValid

/-- R20, R91, R181: bytes that nothing has written cannot be observed. From two states that differ in nothing
else, a step does the same and leaves two such states: the trace, the replies, the calls on the Memory Access
port and every byte on TX are the same. So no run depends on the values log entry 5 names for reset. -/
def Obligations.UnwrittenBytesAreUnobservable : Prop :=
  ∀ s r t : State, s.Inv → r.Inv → s.Alike r → step s = .next t → ∃ u, step r = .next u ∧ t.Alike u

/-- R161 to R165: what the host sees of each error class. A step that records a framing or integrity error is
silent: the cursor is IDLE in RUN, TX and the memory port are as before. A step that records a command error
answers: a response with ACK = 1 and STATUS_ERROR = 1 is about to be queued. A step that records a channel
overflow has lost one byte: the full channel is as it was. -/
def Obligations.ErrorClassDecidesWhatTheHostSees : Prop :=
  ∀ (s t : State) (events : List Event) (e : Event), s.Inv → step s = .next t →
    t.trace = s.trace ++ events → e ∈ events →
    (e.errorClass = some .framingError ∨ e.errorClass = some .integrityError →
      t.phase = .run ∧ t.Idle ∧ t.tx = s.tx ∧ t.memCalls = s.memCalls) ∧
    (e.errorClass = some .commandError →
      t.phase = .emit 0 ∧ (regFlags t.buf).getLsbD s.cfg.flagBit.ack.val = true ∧
        (regFlags t.buf).getLsbD s.cfg.flagBit.statusError.val = true) ∧
    (e.errorClass = some .channelOverflow → t.rx = s.rx ∧ t.tx = s.tx)

/-- R118, R161, R167: nothing in the core is fatal: every state has a next state. The model's choices in it: a
state with nothing enabled, where R193 gives no step, answers itself (log entry 2); the step is defined on states
outside the invariant (log entry 14); nothing is a fault or a refusal (log entry 16). -/
def Obligations.EveryStateHasANextState : Prop :=
  ∀ s : State, ∃ t, step s = .next t

/-- R30, R4: the parameters are build-time constants: no step changes one. -/
def Obligations.NoStepChangesParameters : Prop :=
  ∀ s t : State, step s = .next t → t.cfg = s.cfg

/-- R160, R58, R130, R132: the trace only grows, by at most two events a step: a READ_MEM frame records its read
and its response. That a block reset keeps the trace is the model's choice (log entries 6, 13). -/
def Obligations.TraceOnlyGrows : Prop :=
  ∀ s t : State, step s = .next t → ∃ events, t.trace = s.trace ++ events ∧ events.length ≤ 2

/-- R186: the flush, in RUN. If neither marker is 0x00, 17 zero bytes in RX bring the parser to IDLE from any cursor
in RUN, draw no response, and leave TX alone. The schedule is log entry 1. -/
def Obligations.FlushBringsParserToIdle : Prop :=
  ∀ (s : State) (rest : List Turn), s.Inv → s.cfg.startMarker ≠ 0#8 → s.cfg.endMarker ≠ 0#8 →
    s.phase = .run → s.rx.contents s.cfg.rxSlots = List.replicate 17 0#8 →
    s.turns = List.replicate 17 .engine ++ rest →
    ∃ t, core.run 17 s = .next t ∧ t.Idle ∧ t.phase = .run ∧ t.rx.contents s.cfg.rxSlots = [] ∧
      t.tx = s.tx ∧ t.memCalls = s.memCalls ∧ t.turns = rest ∧
      ∃ events, t.trace = s.trace ++ events ∧
        ∀ e ∈ events, e = .idleDiscard 0#8 ∨ e = .frameDrop .framingMarker

/-- R186: the flush, in EMIT(k). The response in progress is completed first, every byte TX has room for still
delivered to it in order, and the 17 zero bytes then meet IDLE; no response is drawn. Turns left over by a
response that AbortRest cut short wait on an empty RX (log entries 1, 3). -/
def Obligations.FlushEndsResponseFirst : Prop :=
  ∀ (s : State) (k : Fin 18) (rest : List Turn), s.Inv → s.cfg.startMarker ≠ 0#8 →
    s.cfg.endMarker ≠ 0#8 → s.phase = .emit k →
    s.rx.contents s.cfg.rxSlots = List.replicate 17 0#8 →
    s.turns = List.replicate (18 - k.val + 17) .engine ++ rest →
    ∃ t, core.run (18 - k.val + 17) s = .next t ∧ t.Idle ∧ t.phase = .run ∧
      t.rx.contents s.cfg.rxSlots = [] ∧ t.memCalls = s.memCalls ∧ t.turns = rest ∧
      t.tx.contents s.cfg.txSlots =
        s.tx.contents s.cfg.txSlots ++ (s.buf.toList.drop k.val).take s.txRoom ∧
      ∃ events, t.trace = s.trace ++ events ∧
        ∀ e ∈ events, e = .idleDiscard 0#8 ∨ ∃ j : Fin 18, e = .txOverflow j s.buf[j]

/-- R186: the flush, whatever the phase, the cursor, the bytes already in RX, the slot counts and the interleaving
of pushes, pops and engine turns. If neither marker is 0x00 and no pushed byte is dropped, n zero bytes have
brought the parser to IDLE once the engine is in RUN with RX empty, where n = 17 always suffices, and a cursor at
idx over an empty RX needs 18 - idx. If RX was empty before, the flush drew no response and no read. The schedule
is log entry 1. -/
def Obligations.FlushUnderEverySchedule : Prop :=
  ∀ (s t : State) (ts rest : List Turn) (n : Nat), s.Inv → s.cfg.startMarker ≠ 0#8 →
    s.cfg.endMarker ≠ 0#8 → s.turns = ts ++ rest →
    (∀ x ∈ ts, x = .engine ∨ x = .linkPop ∨ x = .linkPush 0#8) → ts.count (.linkPush 0#8) = n →
    (17 ≤ n ∨ (s.rx.head = s.rx.tail ∧ (s.started = true → 18 ≤ s.idx.toNat + n))) →
    core.run ts.length s = .next t →
    t.trace.countP Event.isRxOverflow = s.trace.countP Event.isRxOverflow →
    t.phase = .run → t.rx.head = t.rx.tail →
    t.Idle ∧ (s.rx.head = s.rx.tail → t.memCalls = s.memCalls ∧
      t.trace.countP Event.isResponse = s.trace.countP Event.isResponse)

/-- R191, R193: from every state of the invariant with nothing more scheduled, the fair completion reaches a
quiescent state within the work that remains. The order of the completion is the model's choice (log entry
2). -/
def Obligations.FairCompletionReachesQuiescence : Prop :=
  ∀ s : State, s.Inv → s.turns = [] → ∃ t, core.run s.work s = .next t ∧ t.Quiescent
end

