-- ==== Sys2Proof/Laws/Channel.lean ====
section
/-! SUPPORT. What the two channel operations can do: each answers in exactly one of two ways (40_byte_channel.md
R90, R91). -/

namespace Sys2Proof.Machine

theorem nextIndex_toNat (n : Nat) (h0 : 1 ≤ n) (h : n ≤ 256) (i : BitVec 8) :
    (nextIndex n i).toNat = (i.toNat + 1) % n := by
  have := Nat.mod_lt (i.toNat + 1) h0
  simp [nextIndex]; omega

/-- The index after i without the modulus. -/
theorem succ_mod {n i : Nat} (h : i < n) : (i + 1) % n = if i + 1 = n then 0 else i + 1 := by
  split
  · subst_vars; simp
  · exact Nat.mod_eq_of_lt (by omega)

theorem push_full {n : Nat} {ch : Channel} {b : Byte} (h : (ch.head.toNat + 1) % n = ch.tail.toNat) :
    ch.push n b = none := by
  simp only [Channel.push, if_pos h]

theorem push_room {n : Nat} {ch : Channel} {b : Byte} (h : (ch.head.toNat + 1) % n ≠ ch.tail.toNat) :
    ch.push n b = some ⟨ch.slots.set ch.head.toNat b, nextIndex n ch.head, ch.tail⟩ := by
  simp only [Channel.push, if_neg h]

theorem pop_empty {n : Nat} {ch : Channel} (h : ch.head = ch.tail) : ch.pop n = none := by
  simp only [Channel.pop, if_pos h]

theorem pop_byte {n : Nat} {ch : Channel} (h : ch.head ≠ ch.tail) :
    ch.pop n = some (ch.slots.getD ch.tail.toNat 0#8, ⟨ch.slots, ch.head, nextIndex n ch.tail⟩) := by
  simp only [Channel.pop, if_neg h]

/-- A push that answers Ok found room, wrote the slot at head and moved head alone. -/
theorem push_eq_some {n : Nat} {ch ch' : Channel} {b : Byte} (h : ch.push n b = some ch') :
    (ch.head.toNat + 1) % n ≠ ch.tail.toNat ∧
      ch' = ⟨ch.slots.set ch.head.toNat b, nextIndex n ch.head, ch.tail⟩ := by
  unfold Channel.push at h
  split at h <;> cases h
  exact ⟨by assumption, rfl⟩

/-- A pop that answers a byte found one, read the slot at tail and moved tail alone. -/
theorem pop_eq_some {n : Nat} {ch ch' : Channel} {b : Byte} (h : ch.pop n = some (b, ch')) :
    ch.head ≠ ch.tail ∧ b = ch.slots.getD ch.tail.toNat 0#8 ∧
      ch' = ⟨ch.slots, ch.head, nextIndex n ch.tail⟩ := by
  unfold Channel.pop at h
  split at h <;> cases h
  exact ⟨by assumption, rfl, rfl⟩

end Sys2Proof.Machine
end

