-- ==== Sys2Proof/Laws/Operands.lean ====
section
/-! SUPPORT. The laws of the field registers: what a write to one register leaves in every register, that
the byte-order helpers are inverse, and that the checksum write keeps its own span. -/

namespace Sys2Proof.Machine

/-! ### Byte order -/

theorem lo8_toNat (v : Half) : (lo8 v).toNat = v.toNat % 256 := by
  simp [lo8]

theorem hi8_toNat (v : Half) : (hi8 v).toNat = v.toNat / 256 := by
  have := v.isLt
  simp [hi8, Nat.shiftRight_eq_div_pow]; omega

theorem byteOf_toNat (k : Nat) (v : Word) : (byteOf k v).toNat = v.toNat / 2 ^ (8 * k) % 256 := by
  simp [byteOf, Nat.shiftRight_eq_div_pow]

theorem or_shiftLeft (a b k : Nat) (h : a < 2 ^ k) : a ||| b <<< k = a + b * 2 ^ k := by
  rw [Nat.or_comm, ← Nat.shiftLeft_add_eq_or_of_lt h, Nat.shiftLeft_eq, Nat.add_comm]

theorem le16_toNat (a b : Byte) : (le16 a b).toNat = a.toNat + 256 * b.toNat := by
  have ha := a.isLt
  have hb := b.isLt
  simp only [le16, BitVec.toNat_or, BitVec.toNat_setWidth, BitVec.toNat_shiftLeft]
  rw [Nat.mod_eq_of_lt (by omega : a.toNat < 2 ^ 16), Nat.mod_eq_of_lt (by omega : b.toNat < 2 ^ 16),
    Nat.mod_eq_of_lt (by rw [Nat.shiftLeft_eq]; omega), or_shiftLeft _ _ _ (by omega)]
  omega

theorem le32_toNat (a b c d : Byte) :
    (le32 a b c d).toNat = a.toNat + 256 * b.toNat + 65536 * c.toNat + 16777216 * d.toNat := by
  have ha := a.isLt
  have hb := b.isLt
  have hc := c.isLt
  have hd := d.isLt
  simp only [le32, BitVec.toNat_or, BitVec.toNat_setWidth, BitVec.toNat_shiftLeft]
  rw [Nat.mod_eq_of_lt (by omega : a.toNat < 2 ^ 32), Nat.mod_eq_of_lt (by omega : b.toNat < 2 ^ 32),
    Nat.mod_eq_of_lt (by omega : c.toNat < 2 ^ 32), Nat.mod_eq_of_lt (by omega : d.toNat < 2 ^ 32),
    Nat.mod_eq_of_lt (by rw [Nat.shiftLeft_eq]; omega : b.toNat <<< 8 < 2 ^ 32),
    Nat.mod_eq_of_lt (by rw [Nat.shiftLeft_eq]; omega : c.toNat <<< 16 < 2 ^ 32),
    Nat.mod_eq_of_lt (by rw [Nat.shiftLeft_eq]; omega : d.toNat <<< 24 < 2 ^ 32),
    or_shiftLeft _ _ 8 (by omega), or_shiftLeft _ _ 16 (by omega), or_shiftLeft _ _ 24 (by omega)]
  omega

theorem le16_lo8_hi8 (v : Half) : le16 (lo8 v) (hi8 v) = v := by
  apply BitVec.eq_of_toNat_eq
  rw [le16_toNat, lo8_toNat, hi8_toNat]; omega

theorem lo8_le16 (a b : Byte) : lo8 (le16 a b) = a := by
  have := a.isLt
  apply BitVec.eq_of_toNat_eq
  rw [lo8_toNat, le16_toNat]; omega

theorem hi8_le16 (a b : Byte) : hi8 (le16 a b) = b := by
  have := a.isLt
  apply BitVec.eq_of_toNat_eq
  rw [hi8_toNat, le16_toNat]; omega

theorem le32_byteOf (v : Word) : le32 (byteOf 0 v) (byteOf 1 v) (byteOf 2 v) (byteOf 3 v) = v := by
  have := v.isLt
  apply BitVec.eq_of_toNat_eq
  rw [le32_toNat]; simp only [byteOf_toNat]; omega

theorem byteOf_le32 (a b c d : Byte) :
    byteOf 0 (le32 a b c d) = a ∧ byteOf 1 (le32 a b c d) = b ∧ byteOf 2 (le32 a b c d) = c ∧
      byteOf 3 (le32 a b c d) = d := by
  have ha := a.isLt
  have hb := b.isLt
  have hc := c.isLt
  have hd := d.isLt
  refine ⟨?_, ?_, ?_, ?_⟩ <;> apply BitVec.eq_of_toNat_eq <;> rw [byteOf_toNat, le32_toNat] <;> omega

/-! ### Register writes -/

@[simp] theorem regFlags_writeFlags (v : Byte) (f : Frame) : regFlags (writeFlags v f) = v := by
  simp [regFlags, writeFlags]

@[simp] theorem regCsum_writeCsum (c : Half) (f : Frame) : regCsum (writeCsum c f) = c := by
  simp [regCsum, writeCsum, le16_lo8_hi8]

@[simp] theorem spanOf_writeCsum (c : Half) (f : Frame) : spanOf (writeCsum c f) = spanOf f := by
  simp [spanOf, writeCsum]

@[simp] theorem frameCrc_writeCsum (c : Half) (f : Frame) : frameCrc (writeCsum c f) = frameCrc f := by
  simp [frameCrc]

/-- The checksum of a recomputed frame is well formed (R139). -/
theorem regCsum_recomputeChecksum (f : Frame) :
    regCsum (recomputeChecksum f) = frameCrc (recomputeChecksum f) := by
  simp [recomputeChecksum]

/-- A frame whose checksum is well formed is left as it is. -/
theorem recomputeChecksum_eq_self {f : Frame} (h : frameCrc f = regCsum f) : recomputeChecksum f = f := by
  apply Vector.ext
  intro i hi
  simp only [recomputeChecksum, writeCsum, h, regCsum, lo8_le16, hi8_le16, Vector.getElem_set]
  split
  · subst_vars; rfl
  · split
    · subst_vars; rfl
    · rfl

/-- Byte j of the frame after the copy of R132: DATA[j - 11] where the copy reached, else as before. -/
theorem copyData_getElem (bytes : List Byte) (i : Nat) (f : Frame) (j : Nat) (hj : j < 18) :
    (copyData i bytes f)[j] =
      if h : 11 + i ≤ j ∧ j < 11 + i + bytes.length ∧ j < 15 then bytes[j - (11 + i)] else f[j] := by
  induction bytes generalizing i f with
  | nil => simp [copyData]; omega
  | cons b bs ih =>
    rw [copyData, ih]
    by_cases h : 11 + (i + 1) ≤ j ∧ j < 11 + (i + 1) + bs.length ∧ j < 15
    · have h2 : 11 + i ≤ j ∧ j < 11 + i + (b :: bs).length ∧ j < 15 := by simp; omega
      rw [dif_pos h, dif_pos h2]
      simp [(by omega : j - (11 + i) = j - (11 + (i + 1)) + 1)]
    · rw [dif_neg h]
      by_cases hi : i < 4
      · by_cases he : 11 + i = j
        · subst he
          simp [writeData, hi]; omega
        · have h2 : ¬ (11 + i ≤ j ∧ j < 11 + i + (b :: bs).length ∧ j < 15) := by simp; omega
          rw [dif_neg h2]
          simp [writeData, hi, he]
      · have h2 : ¬ (11 + i ≤ j ∧ j < 11 + i + (b :: bs).length ∧ j < 15) := by omega
        rw [dif_neg h2]
        simp [writeData, hi]

/-- Byte j of a response frame: FLAGS and CSUM are written, every other byte is kept (R143). -/
theorem responseFrame_getElem (k : FlagBits) (ok : Bool) (f : Frame) (j : Nat) (hj : j < 18)
    (h2 : j ≠ 2) (h15 : j ≠ 15) (h16 : j ≠ 16) : (responseFrame k ok f)[j] = f[j] := by
  simp [responseFrame, recomputeChecksum, writeCsum, writeFlags, Ne.symm h2,
    Ne.symm h15, Ne.symm h16]

/-- The FLAGS of a response frame (R138). -/
theorem regFlags_responseFrame (k : FlagBits) (ok : Bool) (f : Frame) :
    regFlags (responseFrame k ok f) = responseFlags k ok (regFlags f) := by
  simp [responseFrame, recomputeChecksum, writeCsum, writeFlags, regFlags]

/-- The CSUM of a response frame (R139). -/
theorem regCsum_responseFrame (k : FlagBits) (ok : Bool) (f : Frame) :
    regCsum (responseFrame k ok f) = frameCrc (responseFrame k ok f) :=
  regCsum_recomputeChecksum _

end Sys2Proof.Machine
end

