-- ==== Sys2Proof/Laws/Decode.lean ====
section
/-! SUPPORT. The laws of the decoder and the encoder: what a frame that decodes looks like, and what the frame
of a command holds in each register (30_encoding.md R70, R71). -/

namespace Sys2Proof

open Sys2Proof.Machine

theorem decode_toList (c : Config) (f : Frame) : decode c f.toList = decodeFrame c f := by
  simp [decode]; rfl

/-- A frame decodes to an instruction when it is valid and its CMD is one of the six. -/
theorem decodeFrame_eq_instr {c : Config} {f : Frame} {i : Instr} (h : decodeFrame c f = .instr i) :
    validate c f = .valid ∧ instrOf c.cmdCode f = some i := by
  unfold decodeFrame at h
  split at h
  · cases h
  · split at h <;> cases h
    constructor <;> assumption

/-- It decodes as unknown when it is valid and its CMD is none of the six. -/
theorem decodeFrame_eq_unknown {c : Config} {f : Frame} {cmd : Byte}
    (h : decodeFrame c f = .rejected (.unknownCommand cmd)) :
    validate c f = .valid ∧ instrOf c.cmdCode f = none ∧ cmd = regCmd f := by
  unfold decodeFrame at h
  split at h
  · cases h
  · split at h <;> cases h
    exact ⟨by assumption, by assumption, rfl⟩

/-- Selection keeps the command byte and the fields. -/
theorem instrOf_eq_some {k : CmdCodes} {f : Frame} {i : Instr} (h : instrOf k f = some i) :
    i.code k = regCmd f ∧ i.fields = fieldsOf f := by
  unfold instrOf at h
  repeat' split at h
  all_goals first | (cases h; simp_all [Instr.code, Instr.fields]) | cases h

/-- The frame of a command holds the markers, the command and the fields. -/
theorem frameOf_registers (c : Config) (cmd : Byte) (f : Fields) :
    regSof (frameOf c cmd f) = c.startMarker ∧ regEof (frameOf c cmd f) = c.endMarker ∧
      regCmd (frameOf c cmd f) = cmd ∧ fieldsOf (frameOf c cmd f) = f ∧
      regCsum (frameOf c cmd f) = frameCrc (frameOf c cmd f) := by
  refine ⟨?_, ?_, ?_, ?_, regCsum_recomputeChecksum _⟩
  · simp [frameOf, recomputeChecksum, writeCsum, regSof]
  · simp [frameOf, recomputeChecksum, writeCsum, regEof]
  · simp [frameOf, recomputeChecksum, writeCsum, regCmd]
  · cases f
    simp [frameOf, recomputeChecksum, writeCsum, fieldsOf, regFlags, regSeq, regZone, regAddr, regLen,
      regData, le16_lo8_hi8, le32_byteOf] <;> rfl

end Sys2Proof
end

