-- ==== Sys2Proof/Laws/PerInstr.lean ====
section
/-! SUPPORT. Facts about every instruction as syntax, one lemma per constructor. -/

namespace Sys2Proof.Laws

open Sys2Proof.Machine

namespace EncodesCommand

/-- R70, R74: the encoding is 18 bytes, and the byte at offset 1 is the instruction's command code. -/
def Statement (i : Instr) : Prop :=
  ∀ c : Config, (encode c i).length = 18 ∧ (encode c i)[1]? = some (i.code c.cmdCode)

theorem of_frame (c : Config) (cmd : Byte) (f : Fields) :
    (frameOf c cmd f).toList.length = 18 ∧ (frameOf c cmd f).toList[1]? = some cmd := by
  have h : (frameOf c cmd f)[1] = cmd := by simp [frameOf, recomputeChecksum, writeCsum]
  exact ⟨by simp, by simp [h]⟩

theorem ping (f : Fields) : Statement (.ping f) := fun c => of_frame c _ f
theorem readMem (f : Fields) : Statement (.readMem f) := fun c => of_frame c _ f
theorem writeMem (f : Fields) : Statement (.writeMem f) := fun c => of_frame c _ f
theorem readReg (f : Fields) : Statement (.readReg f) := fun c => of_frame c _ f
theorem writeReg (f : Fields) : Statement (.writeReg f) := fun c => of_frame c _ f
theorem reset (f : Fields) : Statement (.reset f) := fun c => of_frame c _ f

end EncodesCommand

end Sys2Proof.Laws
end

