-- ==== Sys2Proof/Laws/State.lean ====
section
/-! SUPPORT. One lemma per field per update of State, each true by rfl: no later proof unfolds a record
update. -/

namespace Sys2Proof.Machine

variable (s : State)

/-! `State.setBuf` -/

@[simp] theorem State.setBuf_cfg (f : Frame) : (s.setBuf f).cfg = s.cfg := rfl
@[simp] theorem State.setBuf_buf (f : Frame) : (s.setBuf f).buf = f := rfl
@[simp] theorem State.setBuf_headroom (f : Frame) : (s.setBuf f).headroom = s.headroom := rfl
@[simp] theorem State.setBuf_started (f : Frame) : (s.setBuf f).started = s.started := rfl
@[simp] theorem State.setBuf_idx (f : Frame) : (s.setBuf f).idx = s.idx := rfl
@[simp] theorem State.setBuf_phase (f : Frame) : (s.setBuf f).phase = s.phase := rfl
@[simp] theorem State.setBuf_rx (f : Frame) : (s.setBuf f).rx = s.rx := rfl
@[simp] theorem State.setBuf_tx (f : Frame) : (s.setBuf f).tx = s.tx := rfl
@[simp] theorem State.setBuf_trace (f : Frame) : (s.setBuf f).trace = s.trace := rfl
@[simp] theorem State.setBuf_linkReply (f : Frame) : (s.setBuf f).linkReply = s.linkReply := rfl
@[simp] theorem State.setBuf_turns (f : Frame) : (s.setBuf f).turns = s.turns := rfl
@[simp] theorem State.setBuf_draws (f : Frame) : (s.setBuf f).draws = s.draws := rfl
@[simp] theorem State.setBuf_memCalls (f : Frame) : (s.setBuf f).memCalls = s.memCalls := rfl

/-! `State.setHeadroom` -/

@[simp] theorem State.setHeadroom_cfg (h : List Byte) : (s.setHeadroom h).cfg = s.cfg := rfl
@[simp] theorem State.setHeadroom_buf (h : List Byte) : (s.setHeadroom h).buf = s.buf := rfl
@[simp] theorem State.setHeadroom_headroom (h : List Byte) : (s.setHeadroom h).headroom = h := rfl
@[simp] theorem State.setHeadroom_started (h : List Byte) : (s.setHeadroom h).started = s.started := rfl
@[simp] theorem State.setHeadroom_idx (h : List Byte) : (s.setHeadroom h).idx = s.idx := rfl
@[simp] theorem State.setHeadroom_phase (h : List Byte) : (s.setHeadroom h).phase = s.phase := rfl
@[simp] theorem State.setHeadroom_rx (h : List Byte) : (s.setHeadroom h).rx = s.rx := rfl
@[simp] theorem State.setHeadroom_tx (h : List Byte) : (s.setHeadroom h).tx = s.tx := rfl
@[simp] theorem State.setHeadroom_trace (h : List Byte) : (s.setHeadroom h).trace = s.trace := rfl
@[simp] theorem State.setHeadroom_linkReply (h : List Byte) : (s.setHeadroom h).linkReply = s.linkReply := rfl
@[simp] theorem State.setHeadroom_turns (h : List Byte) : (s.setHeadroom h).turns = s.turns := rfl
@[simp] theorem State.setHeadroom_draws (h : List Byte) : (s.setHeadroom h).draws = s.draws := rfl
@[simp] theorem State.setHeadroom_memCalls (h : List Byte) : (s.setHeadroom h).memCalls = s.memCalls := rfl

/-! `State.setCursor` -/

@[simp] theorem State.setCursor_cfg (v : Bool) (i : BitVec 8) : (s.setCursor v i).cfg = s.cfg := rfl
@[simp] theorem State.setCursor_buf (v : Bool) (i : BitVec 8) : (s.setCursor v i).buf = s.buf := rfl
@[simp] theorem State.setCursor_headroom (v : Bool) (i : BitVec 8) : (s.setCursor v i).headroom = s.headroom := rfl
@[simp] theorem State.setCursor_started (v : Bool) (i : BitVec 8) : (s.setCursor v i).started = v := rfl
@[simp] theorem State.setCursor_idx (v : Bool) (i : BitVec 8) : (s.setCursor v i).idx = i := rfl
@[simp] theorem State.setCursor_phase (v : Bool) (i : BitVec 8) : (s.setCursor v i).phase = s.phase := rfl
@[simp] theorem State.setCursor_rx (v : Bool) (i : BitVec 8) : (s.setCursor v i).rx = s.rx := rfl
@[simp] theorem State.setCursor_tx (v : Bool) (i : BitVec 8) : (s.setCursor v i).tx = s.tx := rfl
@[simp] theorem State.setCursor_trace (v : Bool) (i : BitVec 8) : (s.setCursor v i).trace = s.trace := rfl
@[simp] theorem State.setCursor_linkReply (v : Bool) (i : BitVec 8) : (s.setCursor v i).linkReply = s.linkReply := rfl
@[simp] theorem State.setCursor_turns (v : Bool) (i : BitVec 8) : (s.setCursor v i).turns = s.turns := rfl
@[simp] theorem State.setCursor_draws (v : Bool) (i : BitVec 8) : (s.setCursor v i).draws = s.draws := rfl
@[simp] theorem State.setCursor_memCalls (v : Bool) (i : BitVec 8) : (s.setCursor v i).memCalls = s.memCalls := rfl

/-! `State.setPhase` -/

@[simp] theorem State.setPhase_cfg (p : Phase) : (s.setPhase p).cfg = s.cfg := rfl
@[simp] theorem State.setPhase_buf (p : Phase) : (s.setPhase p).buf = s.buf := rfl
@[simp] theorem State.setPhase_headroom (p : Phase) : (s.setPhase p).headroom = s.headroom := rfl
@[simp] theorem State.setPhase_started (p : Phase) : (s.setPhase p).started = s.started := rfl
@[simp] theorem State.setPhase_idx (p : Phase) : (s.setPhase p).idx = s.idx := rfl
@[simp] theorem State.setPhase_phase (p : Phase) : (s.setPhase p).phase = p := rfl
@[simp] theorem State.setPhase_rx (p : Phase) : (s.setPhase p).rx = s.rx := rfl
@[simp] theorem State.setPhase_tx (p : Phase) : (s.setPhase p).tx = s.tx := rfl
@[simp] theorem State.setPhase_trace (p : Phase) : (s.setPhase p).trace = s.trace := rfl
@[simp] theorem State.setPhase_linkReply (p : Phase) : (s.setPhase p).linkReply = s.linkReply := rfl
@[simp] theorem State.setPhase_turns (p : Phase) : (s.setPhase p).turns = s.turns := rfl
@[simp] theorem State.setPhase_draws (p : Phase) : (s.setPhase p).draws = s.draws := rfl
@[simp] theorem State.setPhase_memCalls (p : Phase) : (s.setPhase p).memCalls = s.memCalls := rfl

/-! `State.setRx` -/

@[simp] theorem State.setRx_cfg (ch : Channel) : (s.setRx ch).cfg = s.cfg := rfl
@[simp] theorem State.setRx_buf (ch : Channel) : (s.setRx ch).buf = s.buf := rfl
@[simp] theorem State.setRx_headroom (ch : Channel) : (s.setRx ch).headroom = s.headroom := rfl
@[simp] theorem State.setRx_started (ch : Channel) : (s.setRx ch).started = s.started := rfl
@[simp] theorem State.setRx_idx (ch : Channel) : (s.setRx ch).idx = s.idx := rfl
@[simp] theorem State.setRx_phase (ch : Channel) : (s.setRx ch).phase = s.phase := rfl
@[simp] theorem State.setRx_rx (ch : Channel) : (s.setRx ch).rx = ch := rfl
@[simp] theorem State.setRx_tx (ch : Channel) : (s.setRx ch).tx = s.tx := rfl
@[simp] theorem State.setRx_trace (ch : Channel) : (s.setRx ch).trace = s.trace := rfl
@[simp] theorem State.setRx_linkReply (ch : Channel) : (s.setRx ch).linkReply = s.linkReply := rfl
@[simp] theorem State.setRx_turns (ch : Channel) : (s.setRx ch).turns = s.turns := rfl
@[simp] theorem State.setRx_draws (ch : Channel) : (s.setRx ch).draws = s.draws := rfl
@[simp] theorem State.setRx_memCalls (ch : Channel) : (s.setRx ch).memCalls = s.memCalls := rfl

/-! `State.setTx` -/

@[simp] theorem State.setTx_cfg (ch : Channel) : (s.setTx ch).cfg = s.cfg := rfl
@[simp] theorem State.setTx_buf (ch : Channel) : (s.setTx ch).buf = s.buf := rfl
@[simp] theorem State.setTx_headroom (ch : Channel) : (s.setTx ch).headroom = s.headroom := rfl
@[simp] theorem State.setTx_started (ch : Channel) : (s.setTx ch).started = s.started := rfl
@[simp] theorem State.setTx_idx (ch : Channel) : (s.setTx ch).idx = s.idx := rfl
@[simp] theorem State.setTx_phase (ch : Channel) : (s.setTx ch).phase = s.phase := rfl
@[simp] theorem State.setTx_rx (ch : Channel) : (s.setTx ch).rx = s.rx := rfl
@[simp] theorem State.setTx_tx (ch : Channel) : (s.setTx ch).tx = ch := rfl
@[simp] theorem State.setTx_trace (ch : Channel) : (s.setTx ch).trace = s.trace := rfl
@[simp] theorem State.setTx_linkReply (ch : Channel) : (s.setTx ch).linkReply = s.linkReply := rfl
@[simp] theorem State.setTx_turns (ch : Channel) : (s.setTx ch).turns = s.turns := rfl
@[simp] theorem State.setTx_draws (ch : Channel) : (s.setTx ch).draws = s.draws := rfl
@[simp] theorem State.setTx_memCalls (ch : Channel) : (s.setTx ch).memCalls = s.memCalls := rfl

/-! `State.record` -/

@[simp] theorem State.record_cfg (e : Event) : (s.record e).cfg = s.cfg := rfl
@[simp] theorem State.record_buf (e : Event) : (s.record e).buf = s.buf := rfl
@[simp] theorem State.record_headroom (e : Event) : (s.record e).headroom = s.headroom := rfl
@[simp] theorem State.record_started (e : Event) : (s.record e).started = s.started := rfl
@[simp] theorem State.record_idx (e : Event) : (s.record e).idx = s.idx := rfl
@[simp] theorem State.record_phase (e : Event) : (s.record e).phase = s.phase := rfl
@[simp] theorem State.record_rx (e : Event) : (s.record e).rx = s.rx := rfl
@[simp] theorem State.record_tx (e : Event) : (s.record e).tx = s.tx := rfl
@[simp] theorem State.record_trace (e : Event) : (s.record e).trace = s.trace ++ [e] := rfl
@[simp] theorem State.record_linkReply (e : Event) : (s.record e).linkReply = s.linkReply := rfl
@[simp] theorem State.record_turns (e : Event) : (s.record e).turns = s.turns := rfl
@[simp] theorem State.record_draws (e : Event) : (s.record e).draws = s.draws := rfl
@[simp] theorem State.record_memCalls (e : Event) : (s.record e).memCalls = s.memCalls := rfl

/-! `State.setReply` -/

@[simp] theorem State.setReply_cfg (r : LinkReply) : (s.setReply r).cfg = s.cfg := rfl
@[simp] theorem State.setReply_buf (r : LinkReply) : (s.setReply r).buf = s.buf := rfl
@[simp] theorem State.setReply_headroom (r : LinkReply) : (s.setReply r).headroom = s.headroom := rfl
@[simp] theorem State.setReply_started (r : LinkReply) : (s.setReply r).started = s.started := rfl
@[simp] theorem State.setReply_idx (r : LinkReply) : (s.setReply r).idx = s.idx := rfl
@[simp] theorem State.setReply_phase (r : LinkReply) : (s.setReply r).phase = s.phase := rfl
@[simp] theorem State.setReply_rx (r : LinkReply) : (s.setReply r).rx = s.rx := rfl
@[simp] theorem State.setReply_tx (r : LinkReply) : (s.setReply r).tx = s.tx := rfl
@[simp] theorem State.setReply_trace (r : LinkReply) : (s.setReply r).trace = s.trace := rfl
@[simp] theorem State.setReply_linkReply (r : LinkReply) : (s.setReply r).linkReply = some r := rfl
@[simp] theorem State.setReply_turns (r : LinkReply) : (s.setReply r).turns = s.turns := rfl
@[simp] theorem State.setReply_draws (r : LinkReply) : (s.setReply r).draws = s.draws := rfl
@[simp] theorem State.setReply_memCalls (r : LinkReply) : (s.setReply r).memCalls = s.memCalls := rfl

/-! `State.setTurns` -/

@[simp] theorem State.setTurns_cfg (ts : List Turn) : (s.setTurns ts).cfg = s.cfg := rfl
@[simp] theorem State.setTurns_buf (ts : List Turn) : (s.setTurns ts).buf = s.buf := rfl
@[simp] theorem State.setTurns_headroom (ts : List Turn) : (s.setTurns ts).headroom = s.headroom := rfl
@[simp] theorem State.setTurns_started (ts : List Turn) : (s.setTurns ts).started = s.started := rfl
@[simp] theorem State.setTurns_idx (ts : List Turn) : (s.setTurns ts).idx = s.idx := rfl
@[simp] theorem State.setTurns_phase (ts : List Turn) : (s.setTurns ts).phase = s.phase := rfl
@[simp] theorem State.setTurns_rx (ts : List Turn) : (s.setTurns ts).rx = s.rx := rfl
@[simp] theorem State.setTurns_tx (ts : List Turn) : (s.setTurns ts).tx = s.tx := rfl
@[simp] theorem State.setTurns_trace (ts : List Turn) : (s.setTurns ts).trace = s.trace := rfl
@[simp] theorem State.setTurns_linkReply (ts : List Turn) : (s.setTurns ts).linkReply = s.linkReply := rfl
@[simp] theorem State.setTurns_turns (ts : List Turn) : (s.setTurns ts).turns = ts := rfl
@[simp] theorem State.setTurns_draws (ts : List Turn) : (s.setTurns ts).draws = s.draws := rfl
@[simp] theorem State.setTurns_memCalls (ts : List Turn) : (s.setTurns ts).memCalls = s.memCalls := rfl

/-! `State.draw` -/

@[simp] theorem State.draw_cfg : (s.draw).cfg = s.cfg := rfl
@[simp] theorem State.draw_buf : (s.draw).buf = s.buf := rfl
@[simp] theorem State.draw_headroom : (s.draw).headroom = s.headroom := rfl
@[simp] theorem State.draw_started : (s.draw).started = s.started := rfl
@[simp] theorem State.draw_idx : (s.draw).idx = s.idx := rfl
@[simp] theorem State.draw_phase : (s.draw).phase = s.phase := rfl
@[simp] theorem State.draw_rx : (s.draw).rx = s.rx := rfl
@[simp] theorem State.draw_tx : (s.draw).tx = s.tx := rfl
@[simp] theorem State.draw_trace : (s.draw).trace = s.trace := rfl
@[simp] theorem State.draw_linkReply : (s.draw).linkReply = s.linkReply := rfl
@[simp] theorem State.draw_turns : (s.draw).turns = s.turns := rfl
@[simp] theorem State.draw_draws : (s.draw).draws = s.draws + 1 := rfl
@[simp] theorem State.draw_memCalls : (s.draw).memCalls = s.memCalls := rfl

/-! `State.call` -/

@[simp] theorem State.call_cfg (m : MemCall) : (s.call m).cfg = s.cfg := rfl
@[simp] theorem State.call_buf (m : MemCall) : (s.call m).buf = s.buf := rfl
@[simp] theorem State.call_headroom (m : MemCall) : (s.call m).headroom = s.headroom := rfl
@[simp] theorem State.call_started (m : MemCall) : (s.call m).started = s.started := rfl
@[simp] theorem State.call_idx (m : MemCall) : (s.call m).idx = s.idx := rfl
@[simp] theorem State.call_phase (m : MemCall) : (s.call m).phase = s.phase := rfl
@[simp] theorem State.call_rx (m : MemCall) : (s.call m).rx = s.rx := rfl
@[simp] theorem State.call_tx (m : MemCall) : (s.call m).tx = s.tx := rfl
@[simp] theorem State.call_trace (m : MemCall) : (s.call m).trace = s.trace := rfl
@[simp] theorem State.call_linkReply (m : MemCall) : (s.call m).linkReply = s.linkReply := rfl
@[simp] theorem State.call_turns (m : MemCall) : (s.call m).turns = s.turns := rfl
@[simp] theorem State.call_draws (m : MemCall) : (s.call m).draws = s.draws := rfl
@[simp] theorem State.call_memCalls (m : MemCall) : (s.call m).memCalls = s.memCalls ++ [m] := rfl

/-! `State.toIdle` -/

@[simp] theorem State.toIdle_cfg : (s.toIdle).cfg = s.cfg := rfl
@[simp] theorem State.toIdle_buf : (s.toIdle).buf = s.buf := rfl
@[simp] theorem State.toIdle_headroom : (s.toIdle).headroom = s.headroom := rfl
@[simp] theorem State.toIdle_started : (s.toIdle).started = false := rfl
@[simp] theorem State.toIdle_idx : (s.toIdle).idx = 0#8 := rfl
@[simp] theorem State.toIdle_phase : (s.toIdle).phase = s.phase := rfl
@[simp] theorem State.toIdle_rx : (s.toIdle).rx = s.rx := rfl
@[simp] theorem State.toIdle_tx : (s.toIdle).tx = s.tx := rfl
@[simp] theorem State.toIdle_trace : (s.toIdle).trace = s.trace := rfl
@[simp] theorem State.toIdle_linkReply : (s.toIdle).linkReply = s.linkReply := rfl
@[simp] theorem State.toIdle_turns : (s.toIdle).turns = s.turns := rfl
@[simp] theorem State.toIdle_draws : (s.toIdle).draws = s.draws := rfl
@[simp] theorem State.toIdle_memCalls : (s.toIdle).memCalls = s.memCalls := rfl

end Sys2Proof.Machine
end

