-- ==== Sys2Proof/Laws/Response.lean ====
section
/-! SUPPORT. What forming a response can do, said once (44_dispatcher.md R130, R138, R139, R143). -/

namespace Sys2Proof.Machine

/-- A flag mask has one bit. -/
theorem getLsbD_bitMask : ∀ n m : Fin 8, (bitMask n).getLsbD m.val = decide (m = n) := by decide

/-- In a legal configuration ACK and STATUS_ERROR are two bits (R4). -/
theorem ack_ne_statusError {c : Config} (h : c.Legal) : c.flagBit.ack ≠ c.flagBit.statusError := by
  have := h.2.1
  simp only [FlagBits.toList, List.nodup_cons, List.mem_cons, List.not_mem_nil, not_or, or_false] at this
  exact this.2.2.1.2.2

/-- The flags of a response, bit by bit (R138). -/
theorem responseFlags_getLsbD (k : FlagBits) (ok : Bool) (v : Byte) (n : Fin 8) (h : k.ack ≠ k.statusError) :
    (responseFlags k ok v).getLsbD n.val = answeredFlag k ok v n := by
  have ha := getLsbD_bitMask k.ack n
  have hs := getLsbD_bitMask k.statusError n
  cases ok <;> simp only [responseFlags, answeredFlag] <;> split <;> (try split) <;>
    simp_all [Bool.or_comm, Bool.and_comm]

/-- Forming a response answers the frame. s holds the request, s' is s after the reads and their events, and f
is s's frame but for DATA. -/
theorem respond_answered {s s' : State} {f : Frame} {events : List Event} (ok : Bool)
    (hc : s.cfg.Legal) (hf : ∀ j (h : j < 18), ¬ (11 ≤ j ∧ j < 15) → f[j] = s.buf[j])
    (hs' : s' = { s with
      buf := f, trace := s.trace ++ events, draws := s'.draws, memCalls := s'.memCalls }) :
    s.Answered ok (regData f) (events ++ [.response (regCmd s.buf) ok]) (s'.respond ok) := by
  have hk := fun j (h : j < 18) (h2 : j ≠ 2) (h15 : j ≠ 15) (h16 : j ≠ 16) =>
    responseFrame_getElem s.cfg.flagBit ok f j h h2 h15 h16
  have hcmd : regCmd f = regCmd s.buf := by simp [regCmd, hf]
  have hflags : regFlags f = regFlags s.buf := by simp [regFlags, hf]
  rw [hs']
  refine ⟨⟨?_, ?_, ?_, ?_, ?_, ?_, ?_⟩, fun n => ?_, fun i => ?_, ?_, rfl, ?_, rfl, rfl, rfl, rfl, rfl,
    rfl, rfl, rfl⟩
  all_goals simp only [State.respond, State.setPhase_buf, State.record_buf, State.setBuf_buf]
  · simp [regSof, hk, hf]
  · simp [regCmd, hk, hf]
  · simp [regSeq, hk, hf]
  · simp [regZone, hk, hf]
  · simp [regAddr, hk, hf]
  · simp [regLen, hk, hf]
  · simp [regEof, hk, hf]
  · rw [regFlags_responseFrame, hflags, responseFlags_getLsbD _ _ _ _ (ack_ne_statusError hc)]
  · have := i.isLt
    exact hk _ _ (by omega) (by omega) (by omega)
  · exact regCsum_responseFrame ..
  · simp [hcmd]

/-- A response formed at once: DATA is kept and one event is recorded. -/
theorem respond_answered_self {s : State} (ok : Bool) (hc : s.cfg.Legal) :
    s.Answered ok (regData s.buf) [.response (regCmd s.buf) ok] (s.respond ok) := by
  have h := respond_answered (s := s) (s' := s) (f := s.buf) (events := []) ok hc (fun _ _ _ => rfl)
    (by simp)
  simpa using h

end Sys2Proof.Machine
end

