-- ==== Sys2Proof/Laws/Step.lean ====
section
/-! SUPPORT. What a step can do, said once for each shared operation: every later proof cites these cases and
unfolds no meaning. -/

namespace Sys2Proof.Machine

/-! ### Turns -/

theorem step_of_turn {s u : State} {t : Turn} (h : s.nextTurn = (some t, u)) : step s = takeTurn t u := by
  simp only [step, takeStep, h]

theorem step_of_waiting {s u : State} (h : s.nextTurn = (none, u)) : step s = .next u := by
  simp only [step, takeStep, h]

/-- The state in which a turn is taken is s but for the schedule. -/
theorem nextTurn_state {s u : State} {t : Option Turn} (h : s.nextTurn = (t, u)) :
    u = s.setTurns u.turns := by
  unfold State.nextTurn at h
  split at h <;> cases h <;> rfl

/-- What the taking of a turn from the schedule leaves alone: everything else. -/
theorem nextTurn_fields {s u : State} {t : Option Turn} (h : s.nextTurn = (t, u)) :
    u.cfg = s.cfg ∧ u.buf = s.buf ∧ u.headroom = s.headroom ∧ u.started = s.started ∧ u.idx = s.idx ∧
      u.phase = s.phase ∧ u.rx = s.rx ∧ u.tx = s.tx ∧ u.trace = s.trace ∧ u.linkReply = s.linkReply ∧
      u.draws = s.draws ∧ u.memCalls = s.memCalls := by
  rw [nextTurn_state h]
  exact ⟨rfl, rfl, rfl, rfl, rfl, rfl, rfl, rfl, rfl, rfl, rfl, rfl⟩

/-- A step waits or takes one turn. -/
theorem step_cases {s t : State} (h : step s = .next t) :
    (∃ u, s.nextTurn = (none, u) ∧ t = u) ∨
      ∃ turn u, s.nextTurn = (some turn, u) ∧ takeTurn turn u = .next t := by
  rcases hn : s.nextTurn with ⟨_ | turn, u⟩
  · rw [step_of_waiting hn] at h
    cases h
    exact .inl ⟨_, rfl, rfl⟩
  · rw [step_of_turn hn] at h
    exact .inr ⟨turn, _, rfl, h⟩

theorem engineTurn_run {s : State} (h : s.phase = .run) : engineTurn s = engineByte s := by
  simp only [engineTurn, h]

theorem engineTurn_emit {s : State} {k : Fin 18} (h : s.phase = .emit k) :
    engineTurn s = .next (engineEmit k s) := by
  simp only [engineTurn, h]

/-! ### The commands -/

/-- Every command answers its frame, READ_MEM after one read. -/
theorem exec_cases (i : Instr) (s : State) :
    (∃ ok, exec i s = .next (s.respond ok)) ∨
      ∃ f, i = .readMem f ∧
        exec i s = .next ((s.call (.read f.zone f.addr f.len)).draw.readDone f.zone f.addr f.len
          (memAnswer s.draws f.zone f.addr f.len)) := by
  cases i with
  | ping f => exact .inl ⟨_, rfl⟩
  | readMem f => exact .inr ⟨f, rfl, rfl⟩
  | writeMem f => exact .inl ⟨_, rfl⟩
  | readReg f => exact .inl ⟨_, rfl⟩
  | writeReg f => exact .inl ⟨_, rfl⟩
  | reset f => exact .inl ⟨_, rfl⟩

/-- A frame that is complete is dropped, answered, or answered after one read (R114, R130). -/
theorem complete_cases (s : State) :
    (∃ cls, validate s.cfg s.buf = .invalid cls ∧ complete s = .next (s.drop cls)) ∨
      (validate s.cfg s.buf = .valid ∧ ∃ ok, complete s = .next (s.respond ok)) ∨
      ∃ f, decodeFrame s.cfg s.buf = .instr (.readMem f) ∧
        complete s = .next ((s.call (.read f.zone f.addr f.len)).draw.readDone f.zone f.addr f.len
          (memAnswer s.draws f.zone f.addr f.len)) := by
  cases hv : validate s.cfg s.buf with
  | invalid cls => exact .inl ⟨cls, rfl, by simp only [complete, hv]⟩
  | valid =>
    right
    cases hi : instrOf s.cfg.cmdCode s.buf with
    | none => exact .inl ⟨rfl, false, by simp only [complete, hv, dispatch, hi]; rfl⟩
    | some i =>
      have hc : complete s = exec i s := by simp only [complete, hv, dispatch, hi]
      rcases exec_cases i s with ⟨ok, h⟩ | ⟨f, rfl, h⟩
      · exact .inl ⟨rfl, ok, by rw [hc, h]⟩
      · exact .inr ⟨f, by simp only [decodeFrame, hv, hi], by rw [hc, h]⟩

/-- What judging a frame leaves of the rest of the state, and what it does: a drop, or one response, formed from
a frame that differs from the request in DATA at most, with one read before it if the command is READ_MEM. -/
theorem complete_frame {s t : State} (h : complete s = .next t) :
    (t.cfg = s.cfg ∧ t.headroom = s.headroom ∧ t.rx = s.rx ∧ t.tx = s.tx ∧ t.linkReply = s.linkReply ∧
      t.turns = s.turns) ∧
    ((∃ cls, validate s.cfg s.buf = .invalid cls ∧ t = s.drop cls) ∨
      (validate s.cfg s.buf = .valid ∧ t.phase = .emit 0 ∧ t.started = s.started ∧ t.idx = s.idx ∧
        ∃ f ok, t.buf = responseFrame s.cfg.flagBit ok f ∧
          (∀ j (h : j < 18), ¬ (11 ≤ j ∧ j < 15) → f[j] = s.buf[j]) ∧
          ((t.memCalls = s.memCalls ∧ t.trace = s.trace ++ [.response (regCmd s.buf) ok]) ∨
            ∃ g answer, decodeFrame s.cfg s.buf = .instr (.readMem g) ∧
              t.memCalls = s.memCalls ++ [.read g.zone g.addr g.len] ∧
              t.trace = s.trace ++
                [.memReadEv g.zone g.addr g.len answer, .response (regCmd s.buf) ok]))) := by
  rcases complete_cases s with ⟨cls, hv, e⟩ | ⟨hv, ok, e⟩ | ⟨g, hd, e⟩ <;> rw [e] at h <;> cases h
  · exact ⟨⟨rfl, rfl, rfl, rfl, rfl, rfl⟩, .inl ⟨cls, hv, rfl⟩⟩
  · exact ⟨⟨rfl, rfl, rfl, rfl, rfl, rfl⟩, .inr
      ⟨hv, rfl, rfl, rfl, s.buf, ok, rfl, fun _ _ _ => rfl, .inl ⟨rfl, rfl⟩⟩⟩
  · have hv := (decodeFrame_eq_instr hd).1
    cases memAnswer s.draws g.zone g.addr g.len with
    | ok bs =>
      refine ⟨⟨rfl, rfl, rfl, rfl, rfl, rfl⟩, .inr
        ⟨hv, rfl, rfl, rfl, copyData 0 bs s.buf, true, rfl, fun j hj hn => ?_, .inr
          ⟨g, .ok bs, hd, rfl, ?_⟩⟩⟩
      · rw [copyData_getElem, dif_neg]; omega
      · simp [State.readDone, State.respond, regCmd, copyData_getElem]
    | err =>
      refine ⟨⟨rfl, rfl, rfl, rfl, rfl, rfl⟩, .inr
        ⟨hv, rfl, rfl, rfl, s.buf, false, rfl, fun j hj hn => rfl, .inr ⟨g, .err, hd, rfl, ?_⟩⟩⟩
      simp [State.readDone, State.respond]

/-! ### The parser -/

theorem parseIdle_marker {b : Byte} {s : State} (h : b = s.cfg.startMarker) :
    parseIdle b s = (s.setBuf (s.buf.set 0 b)).setCursor true 1#8 := by
  simp only [parseIdle, if_pos h, State.storeByte]; rfl

theorem parseIdle_other {b : Byte} {s : State} (h : b ≠ s.cfg.startMarker) :
    parseIdle b s = s.record (.idleDiscard b) := by
  simp only [parseIdle, if_neg h]

/-- A store below 18 goes to the frame (R20). -/
theorem storeByte_of_lt {s : State} {i : Nat} (b : Byte) (h : i < 18) :
    s.storeByte i b = s.setBuf (s.buf.set i b) := by
  simp only [State.storeByte, dif_pos h]

/-- A store changes the buffer or the headroom and nothing else (R20). -/
theorem storeByte_rest (s : State) (i : Nat) (b : Byte) :
    s.storeByte i b =
      { s with buf := (s.storeByte i b).buf, headroom := (s.storeByte i b).headroom } := by
  unfold State.storeByte
  split <;> rfl

/-- What a collected byte stores (R112). -/
theorem appendByte_of_lt {s : State} (b : Byte) (h : s.idx.toNat < 18) :
    appendByte b s =
      (s.setBuf (s.buf.set s.idx.toNat b)).setCursor s.started (s.idx + 1#8) := by
  simp only [appendByte, storeByte_of_lt b h]

/-- The byte collected as the 18th of a frame leaves the state in which the frame is judged. -/
theorem appendByte_seventeen {s : State} (b : Byte) (rx : Channel) (h : s.idx = 17#8) :
    appendByte b (s.setRx rx) = s.collected b rx := by
  simp only [appendByte, State.storeByte, State.setRx_idx, h]
  rfl

/-- What a collected byte does: the dead guard, a plain store, or the end of a frame (R112 to R114). -/
theorem parseCollect_cases (b : Byte) (s : State) :
    (s.cfg.bufSize ≤ s.idx.toNat ∧ parseCollect b s = .next (s.drop .overflow)) ∨
      (s.idx.toNat < s.cfg.bufSize ∧ s.idx ≠ 17#8 ∧ parseCollect b s = .next (appendByte b s)) ∨
      (s.idx.toNat < s.cfg.bufSize ∧ s.idx = 17#8 ∧ parseCollect b s = complete (appendByte b s)) := by
  unfold parseCollect
  split
  · exact .inl ⟨by assumption, rfl⟩
  · right
    split
    · right
      rename_i h
      simp [appendByte, Config.packetSize] at h
      exact ⟨by omega, by apply BitVec.eq_of_toNat_eq; simp; omega, rfl⟩
    · left
      rename_i h
      simp [appendByte, Config.packetSize] at h
      exact ⟨by omega, by intro e; rw [e] at h; simp at h, rfl⟩

/-- Everything an `EngineByte` can do (R110 to R114). -/
theorem engineByte_cases (s : State) :
    (s.rx.head = s.rx.tail ∧ engineByte s = .next s) ∨
      ∃ b rx, s.rx.pop s.cfg.rxSlots = some (b, rx) ∧
        ((s.started = false ∧ engineByte s = .next (parseIdle b (s.setRx rx))) ∨
          (s.started = true ∧ s.cfg.bufSize ≤ s.idx.toNat ∧
            engineByte s = .next ((s.setRx rx).drop .overflow)) ∨
          (s.started = true ∧ s.idx.toNat < s.cfg.bufSize ∧ s.idx ≠ 17#8 ∧
            engineByte s = .next (appendByte b (s.setRx rx))) ∨
          (s.started = true ∧ 18 ≤ s.cfg.bufSize ∧ s.idx = 17#8 ∧
            engineByte s = complete (s.collected b rx))) := by
  cases h : s.rx.pop s.cfg.rxSlots with
  | none =>
    refine .inl ⟨?_, by simp only [engineByte, h]⟩
    by_cases he : s.rx.head = s.rx.tail
    · exact he
    · rw [pop_byte he] at h; cases h
  | some p =>
    right
    obtain ⟨b, rx⟩ := p
    refine ⟨b, rx, rfl, ?_⟩
    have e : engineByte s = parseByte b (s.setRx rx) := by simp only [engineByte, h]
    cases hs : s.started with
    | false => exact .inl ⟨rfl, by rw [e]; simp [parseByte, hs]⟩
    | true =>
      right
      have e2 : engineByte s = parseCollect b (s.setRx rx) := by rw [e]; simp [parseByte, hs]
      rcases parseCollect_cases b (s.setRx rx) with ⟨h1, h2⟩ | ⟨h1, h2, h3⟩ | ⟨h1, h2, h3⟩
      · exact .inl ⟨rfl, h1, by rw [e2, h2]⟩
      · exact .inr (.inl ⟨rfl, h1, h2, by rw [e2, h3]⟩)
      · simp only [State.setRx_idx, State.setRx_cfg] at h1 h2
        refine .inr (.inr ⟨rfl, ?_, h2, by rw [e2, h3, appendByte_seventeen b rx h2]⟩)
        rw [h2] at h1
        simp at h1; omega

/-- The engine's turn on the 18th byte judges the frame (R114). -/
theorem step_of_completing {s u : State} {b : Byte} {rx : Channel} (h : s.Completing u b rx) :
    step s = complete (u.collected b rx) := by
  rw [step_of_turn h.turn]
  show engineTurn u = _
  rw [engineTurn_run h.phase]
  have h18 := h.storage
  have hi : u.idx.toNat = 17 := by rw [h.idx]; rfl
  rcases engineByte_cases u with ⟨he, _⟩ | ⟨b', rx', hp, ⟨hs, _⟩ | ⟨_, hb, _⟩ | ⟨_, _, hn, _⟩ | ⟨_, _, _, e⟩⟩
  · have hb := h.byte; rw [pop_empty he] at hb; cases hb
  · rw [h.started] at hs; cases hs
  · omega
  · exact absurd h.idx hn
  · rw [h.byte] at hp; cases hp; exact e

/-! ### The emitter -/

theorem nextEmit_eq (k : Fin 18) (s : State) :
    nextEmit k s = if k.val = 17 then s.endResponse else s.setPhase (.emit (k + 1)) := by
  unfold nextEmit
  split
  · rw [if_neg (by omega)]
    congr 2
    apply Fin.ext
    rw [Fin.val_add]; simp; omega
  · rw [if_pos (by omega)]

/-- Everything an `EngineEmit` can do (R140): the byte is queued, or lost and the response goes on, or lost and
it ends. -/
theorem engineEmit_cases (k : Fin 18) (s : State) :
    (∃ tx, s.tx.push s.cfg.txSlots s.buf[k] = some tx ∧ engineEmit k s = nextEmit k (s.setTx tx)) ∨
      (s.tx.push s.cfg.txSlots s.buf[k] = none ∧ s.cfg.txFullPolicy = .dropContinue ∧
        engineEmit k s = nextEmit k (s.record (.txOverflow k s.buf[k]))) ∨
      (s.tx.push s.cfg.txSlots s.buf[k] = none ∧ s.cfg.txFullPolicy = .abortRest ∧
        engineEmit k s = (s.record (.txOverflow k s.buf[k])).endResponse) := by
  cases h : s.tx.push s.cfg.txSlots s.buf[k] with
  | some tx => exact .inl ⟨tx, rfl, by simp only [engineEmit, h]⟩
  | none =>
    right
    cases hp : s.cfg.txFullPolicy with
    | dropContinue => exact .inl ⟨rfl, rfl, by simp only [engineEmit, h, hp]⟩
    | abortRest => exact .inr ⟨rfl, rfl, by simp only [engineEmit, h, hp]⟩

/-! ### The link and the block reset -/

/-- Everything a `LinkPush` can do (R58, R90). -/
theorem linkPush_cases (b : Byte) (s : State) :
    (∃ rx, s.rx.push s.cfg.rxSlots b = some rx ∧ linkPush b s = (s.setRx rx).setReply .pushOk) ∨
      (s.rx.push s.cfg.rxSlots b = none ∧
        linkPush b s = (s.record (.rxOverflow b)).setReply .pushFull) := by
  cases h : s.rx.push s.cfg.rxSlots b with
  | some rx => exact .inl ⟨rx, rfl, by simp only [linkPush, h]⟩
  | none => exact .inr ⟨rfl, by simp only [linkPush, h]⟩

/-- Everything a `LinkPop` can do (R58, R91). -/
theorem linkPop_cases (s : State) :
    (∃ b tx, s.tx.pop s.cfg.txSlots = some (b, tx) ∧
        linkPop s = ((s.setTx tx).record (.txByte b)).setReply (.popByte b)) ∨
      (s.tx.pop s.cfg.txSlots = none ∧ linkPop s = s.setReply .popEmpty) := by
  cases h : s.tx.pop s.cfg.txSlots with
  | some p => exact .inl ⟨p.1, p.2, rfl, by simp only [linkPop, h]⟩
  | none => exact .inr ⟨rfl, by simp only [linkPop, h]⟩

/-- What a block reset leaves (R181); the contents of buffer and slots are free values. -/
theorem blockReset_fields (s : State) :
    (blockReset s).cfg = s.cfg ∧ (blockReset s).Idle ∧ (blockReset s).phase = .run ∧
      (blockReset s).headroom.length = s.cfg.bufSize - 18 ∧
      (blockReset s).rx.slots.length = s.cfg.rxSlots ∧ (blockReset s).rx.head = 0#8 ∧
      (blockReset s).rx.tail = 0#8 ∧ (blockReset s).tx.slots.length = s.cfg.txSlots ∧
      (blockReset s).tx.head = 0#8 ∧ (blockReset s).tx.tail = 0#8 ∧ (blockReset s).trace = s.trace ∧
      (blockReset s).linkReply = s.linkReply ∧ (blockReset s).turns = s.turns ∧
      (blockReset s).memCalls = s.memCalls := by
  simp [blockReset, State.Idle, unspecifiedBytes]

end Sys2Proof.Machine
end

