-- ==== Sys2Proof/Tests/Slice0.lean ====
section
/-! SUPPORT. The model's own tests. Expected bytes are the spec's worked vectors (95_test_vectors.md, and the
examples of the rules named); witness_<Name> shows concrete values that meet the hypotheses of
Obligations.<Name>. -/

namespace Sys2Proof.Tests

open Sys2Proof Sys2Proof.Machine

/-! ### Well-formedness (R78, R122) -/

theorem test_wf_refuses_len_five : (Instr.ping ⟨0, 0, 0, 0, 5, 0, 0, 0, 0⟩).wf = false := by decide
theorem test_wf_refuses_len_256 : (Instr.readMem ⟨0, 0, 0, 0, 0x0100, 0, 0, 0, 0⟩).wf = false := by decide
theorem test_wf_admits_every_other_field :
    (Instr.reset ⟨0xFF, 0xFF, 0xFF, 0xFFFFFFFF, 4, 0xAA, 0x55, 0xAA, 0x55⟩).wf = true := by decide

/-! ### Decoding: frames of 95_test_vectors.md, byte by byte -/

/-- `FRAME PING` (R83). -/
def ping : Frame := #v[0xAA, 0x01, 0, 0, 0, 0, 0, 0, 0, 0, 0, 0, 0, 0, 0, 0x0B, 0xD2, 0x55]
/-- `FRAME READ_MEM addr=0x20000000 len=4` (R132). -/
def readMem : Frame := #v[0xAA, 0x02, 0, 0, 0, 0, 0, 0, 0x20, 4, 0, 0, 0, 0, 0, 0xFF, 0x37, 0x55]
/-- `FRAME READ_MEM addr=0x20000002 len=2 data=A1 A2 A3 A4` (95_test_vectors.md, section 3.5). -/
def readTwo : Frame :=
  #v[0xAA, 0x02, 0, 0, 0, 0x02, 0, 0, 0x20, 2, 0, 0xA1, 0xA2, 0xA3, 0xA4, 0xE9, 0x96, 0x55]
/-- `FRAME WRITE_MEM addr=0x20000000 len=4 data=DE AD BE EF` (R133). -/
def writeMem : Frame :=
  #v[0xAA, 0x03, 0, 0, 0, 0, 0, 0, 0x20, 4, 0, 0xDE, 0xAD, 0xBE, 0xEF, 0xC9, 0x88, 0x55]
/-- `FRAME READ_REG` (R134). -/
def readReg : Frame := #v[0xAA, 0x04, 0, 0, 0, 0, 0, 0, 0, 0, 0, 0, 0, 0, 0, 0xCF, 0x54, 0x55]
/-- `FRAME WRITE_REG` (R135). -/
def writeReg : Frame := #v[0xAA, 0x05, 0, 0, 0, 0, 0, 0, 0, 0, 0, 0, 0, 0, 0, 0xAE, 0x2F, 0x55]
/-- `FRAME RESET` (R136). -/
def reset : Frame := #v[0xAA, 0x06, 0, 0, 0, 0, 0, 0, 0, 0, 0, 0, 0, 0, 0, 0x0D, 0xA2, 0x55]
/-- `FRAME 0x00` (R137). -/
def unknown : Frame := #v[0xAA, 0x00, 0, 0, 0, 0, 0, 0, 0, 0, 0, 0, 0, 0, 0, 0x6A, 0xA9, 0x55]

/-- All fields zero. -/
def zeros : Fields := ⟨0, 0, 0, 0, 0, 0, 0, 0, 0⟩

theorem test_decode_ping : decode Config.default ping.toList = .instr (.ping zeros) := by decide
theorem test_decode_readMem : decode Config.default readTwo.toList =
    .instr (.readMem ⟨0, 0, 0, 0x20000002, 2, 0xA1, 0xA2, 0xA3, 0xA4⟩) := by decide
theorem test_decode_writeMem : decode Config.default writeMem.toList =
    .instr (.writeMem ⟨0, 0, 0, 0x20000000, 4, 0xDE, 0xAD, 0xBE, 0xEF⟩) := by decide
theorem test_decode_readReg : decode Config.default readReg.toList = .instr (.readReg zeros) := by decide
theorem test_decode_writeReg : decode Config.default writeReg.toList = .instr (.writeReg zeros) := by decide
theorem test_decode_reset : decode Config.default reset.toList = .instr (.reset zeros) := by decide

/-- E2: the encoder gives the frame of the spec back. -/
theorem test_encode_readMem :
    encode Config.default (.readMem ⟨0, 0, 0, 0x20000000, 4, 0, 0, 0, 0⟩) = readMem.toList := by decide

theorem test_decode_refuses_seventeen_bytes :
    decode Config.default (ping.toList.take 17) = .rejected .notEighteenBytes := by decide
/-- R120's example: `FRAME PING eof=0x00`. -/
theorem test_decode_refuses_marker :
    decode Config.default (ping.set 17 0).toList = .rejected (.invalid .framingMarker) := by decide
/-- P4: `FRAME PING len=5`, its checksum good. -/
theorem test_decode_refuses_len_five :
    decode Config.default [0xAA, 1, 0, 0, 0, 0, 0, 0, 0, 5, 0, 0, 0, 0, 0, 0x0A, 0x91, 0x55] =
      .rejected (.invalid .framingLength) := by decide
/-- R122: LEN = 0x0100 tells a little-endian reading from a big-endian one. -/
theorem test_decode_refuses_len_256 :
    decode Config.default (ping.set 10 1).toList = .rejected (.invalid .framingLength) := by decide
/-- E5: one tampered data byte. -/
theorem test_decode_refuses_tampered :
    decode Config.default (ping.set 11 1).toList = .rejected (.invalid .integrity) := by decide
/-- R123: the checksum bytes swapped. -/
theorem test_decode_refuses_swapped_checksum :
    decode Config.default ((ping.set 15 0xD2).set 16 0x0B).toList = .rejected (.invalid .integrity) := by
  decide
theorem test_decode_unknown :
    decode Config.default unknown.toList = .rejected (.unknownCommand 0x00) ∧
      decode Config.default
        [0xAA, 0xFF, 0, 0, 0, 0, 0, 0, 0, 0, 0, 0, 0, 0, 0, 0xFE, 0x15, 0x55] =
        .rejected (.unknownCommand 0xFF) := by decide

/-- The opcode table's words: one byte, the command. -/
theorem test_table_words :
    decodeTableWord 8 1 = some (.ping zeros) ∧ decodeTableWord 8 2 = some (.readMem zeros) ∧
      decodeTableWord 8 3 = some (.writeMem zeros) ∧ decodeTableWord 8 4 = some (.readReg zeros) ∧
      decodeTableWord 8 5 = some (.writeReg zeros) ∧ decodeTableWord 8 6 = some (.reset zeros) ∧
      decodeTableWord 8 7 = none := by decide

/-! ### Checksum (95_test_vectors.md, section 3.1) -/

/-- The first step of the trace of "123456789". -/
theorem test_crc_step : crc16Step 0xFFFF 0x31 = 0xC782 := by decide
theorem test_crc_check_value :
    crc16 [0x31, 0x32, 0x33, 0x34, 0x35, 0x36, 0x37, 0x38, 0x39] = 0x29B1 := by decide
theorem test_crc_short : crc16 [] = 0xFFFF ∧ crc16 [0x00] = 0xE1F0 ∧ crc16 [0x01, 0x02] = 0x0E7C := by
  decide

/-! ### Channels (95_test_vectors.md, section 3.2) -/

theorem test_push_room :
    (Channel.mk [1, 2, 3, 4] 2 0).push 4 0x33 = some ⟨[1, 2, 0x33, 4], 3, 0⟩ := by decide
theorem test_push_full : (Channel.mk [1, 2, 3, 4] 3 0).push 4 0x44 = none := by decide
theorem test_pop_wraps : (Channel.mk [1, 2, 3, 4] 1 3).pop 4 = some (4, ⟨[1, 2, 3, 4], 1, 0⟩) := by decide
theorem test_pop_empty : (Channel.mk [1, 2, 3, 4] 0 0).pop 4 = none := by decide
theorem test_push_256 :
    ((Channel.mk (List.replicate 256 0) 255 0).push 256 1).isNone = true ∧
      ((Channel.mk (List.replicate 256 0) 255 10).push 256 1).map (·.head) = some 0 := by decide

/-! ### Flags (95_test_vectors.md, the corner cases of R138) -/

theorem test_flags_success :
    [0x00, 0x20, 0x24, 0x3F, 0x80, 0xFF].map (responseFlags Config.default.flagBit true) =
      [0x04, 0x04, 0x04, 0x1F, 0x84, 0xDF] := by decide
theorem test_flags_failure :
    [0x00, 0x20, 0x24, 0x3F, 0x80, 0xFF].map (responseFlags Config.default.flagBit false) =
      [0x24, 0x24, 0x24, 0x3F, 0xA4, 0xFF] := by decide

/-! ### Responses (95_test_vectors.md, section 3.5) -/

/-- Reset values but for small channels: RX_N = 4, TX_N = 19. -/
def small : Config := { Config.default with rxSlots := 4, txSlots := 19 }

/-- A complete frame in the buffer, as the engine judges it. -/
def judging (f : Frame) : State :=
  { State.resetWith small with buf := f, started := true, idx := 18#8 }

/-- The buffer after an outcome. -/
def bufOf : Host.Outcome State Fault Refusal → List Byte
  | .next t => t.buf.toList
  | .fault _ => []
  | .refused _ => []

theorem test_ping_response : bufOf (exec (.ping zeros) (judging ping)) =
    [0xAA, 0x01, 0x04, 0, 0, 0, 0, 0, 0, 0, 0, 0, 0, 0, 0, 0xA6, 0xD7, 0x55] := by decide
theorem test_readMem_response_ok :
    ((judging readTwo).readDone 0 0x20000002 2 (.ok [0x33, 0x44])).buf.toList =
      [0xAA, 0x02, 0x04, 0, 0, 0x02, 0, 0, 0x20, 2, 0, 0x33, 0x44, 0xA3, 0xA4, 0x22, 0xAA, 0x55] := by
  decide
/-- E6. -/
theorem test_readMem_response_err :
    ((judging #v[0xAA, 0x02, 0, 0, 0x07, 0, 0, 0, 0x20, 4, 0, 0, 0, 0, 0, 0x42, 0x1E, 0x55]).readDone
      7 0x20000000 4 .err).buf.toList =
      [0xAA, 0x02, 0x24, 0, 0x07, 0, 0, 0, 0x20, 4, 0, 0, 0, 0, 0, 0x87, 0x36, 0x55] := by decide
theorem test_writeMem_response :
    bufOf (exec (.writeMem ⟨0, 0, 0, 0x20000000, 4, 0xDE, 0xAD, 0xBE, 0xEF⟩) (judging writeMem)) =
      [0xAA, 0x03, 0x24, 0, 0, 0, 0, 0, 0x20, 4, 0, 0xDE, 0xAD, 0xBE, 0xEF, 0x0C, 0xA0, 0x55] := by decide
theorem test_readReg_response : bufOf (exec (.readReg zeros) (judging readReg)) =
    [0xAA, 0x04, 0x24, 0, 0, 0, 0, 0, 0, 0, 0, 0, 0, 0, 0, 0x0A, 0x7C, 0x55] := by decide
theorem test_writeReg_response : bufOf (exec (.writeReg zeros) (judging writeReg)) =
    [0xAA, 0x05, 0x24, 0, 0, 0, 0, 0, 0, 0, 0, 0, 0, 0, 0, 0x6B, 0x07, 0x55] := by decide
theorem test_reset_response : bufOf (exec (.reset zeros) (judging reset)) =
    [0xAA, 0x06, 0x24, 0, 0, 0, 0, 0, 0, 0, 0, 0, 0, 0, 0, 0xC8, 0x8A, 0x55] := by decide
theorem test_unknown_response : bufOf (execUnknown (judging unknown)) =
    [0xAA, 0x00, 0x24, 0, 0, 0, 0, 0, 0, 0, 0, 0, 0, 0, 0, 0xAF, 0x81, 0x55] := by decide

/-! ### Error classes (the table of R161) -/

theorem test_error_codes :
    [Event.frameDrop .framingMarker, .frameDrop .framingLength, .frameDrop .integrity, .response 7 false,
        .rxOverflow 0, .txOverflow 0 0].map (fun e => e.errorClass.map ErrorClass.code) =
      [some 1, some 1, some 2, some 3, some 4, some 4] := by decide

/-! ### Single steps -/

/-- What a step leaves of the cursor, the phase and the trace. -/
def view : Host.Outcome State Fault Refusal → Option (Bool × BitVec 8 × Phase × List Event)
  | .next t => some (t.started, t.idx, t.phase, t.trace)
  | .fault _ => none
  | .refused _ => none

/-- The state about to take the last byte of a frame. -/
def awaiting (f : Frame) : State := (State.resetWith small).awaiting f

/-- E4, R114: a PING is answered in the step that takes its last byte. -/
theorem test_step_runs_ping :
    view (step (awaiting ping)) = some (true, 18#8, .emit 0, [.response 0x01 true]) := by decide
/-- E5: nothing is answered. -/
theorem test_step_drops_tampered :
    view (step (awaiting (ping.set 11 1))) = some (false, 0#8, .run, [.frameDrop .integrity]) := by decide
/-- R115, R116: both markers are data at offset 16. -/
theorem test_step_marker_is_data :
    view (step { awaiting (ping.set 17 0xAA) with idx := 16#8 }) = some (true, 17#8, .run, []) := by decide
/-- R111: an end marker in IDLE is discarded. -/
theorem test_step_idle_discards :
    view (step { awaiting ping with started := false, idx := 0#8 }) =
      some (false, 0#8, .run, [.idleDiscard 0x55]) := by decide
/-- The very first step after reset runs the placed table word. -/
theorem test_step_runs_table_word :
    view (step (State.reset.withFetchWord 8 1)) = some (true, 18#8, .emit 0, [.response 0x01 true]) ∧
      view (step (State.reset.withFetchWord 8 6)) = some (true, 18#8, .emit 0, [.response 0x06 false]) := by
  decide
/-- READ_MEM too, whatever the backend answers. -/
theorem test_step_runs_readMem_word :
    ∃ t, step (State.reset.withFetchWord 8 2) = .next t := ⟨_, rfl⟩
/-- 95_test_vectors.md, TX overflow under AbortRest: one event, the emission abandoned. -/
theorem test_emit_abort_rest :
    view (.next (engineEmit 0
      { judging ping with
        cfg := { small with txFullPolicy := .abortRest }, tx := ⟨List.replicate 19 0, 18, 0⟩,
        phase := .emit 0 })) = some (false, 0#8, .run, [.txOverflow 0 0xAA]) := by decide
/-- The same under DropContinue: the next byte is offered. -/
theorem test_emit_drop_continue :
    view (.next (engineEmit 0
      { judging ping with tx := ⟨List.replicate 19 0, 18, 0⟩, phase := .emit 0 })) =
      some (true, 18#8, .emit 1, [.txOverflow 0 0xAA]) := by decide

/-! ### Witnesses: encoding -/

theorem legal_default : Config.default.Legal := by decide
theorem legal_small : small.Legal := by decide
/-- The parameters at the ends of their ranges. -/
theorem legal_bounds :
    Config.Legal { Config.default with bufSize := 18, rxSlots := 2, txSlots := 19 } ∧
      Config.Legal { Config.default with rxSlots := 256, txSlots := 256 } := by decide

theorem witness_DecodeOfEncodeIsInstruction :
    Config.default.Legal ∧ (Instr.readMem ⟨0xFF, 1, 7, 0xFFFFFFFF, 4, 1, 2, 3, 4⟩).wf = true ∧
      (Instr.ping zeros).wf = true := by decide
theorem witness_EncodeOfDecodeIsBytes :
    decode Config.default ping.toList = .instr (.ping zeros) := by decide
theorem witness_UnknownCommandDecodesByName :
    zeros.wf = true ∧ (0x00 : Byte) ∉ Config.default.cmdCode.toList ∧
      (0x07 : Byte) ∉ Config.default.cmdCode.toList ∧ (0xFF : Byte) ∉ Config.default.cmdCode.toList := by
  decide
theorem witness_SingleByteCorruptionCaught :
    validate Config.default ping = .valid ∧ (0x02 : Byte) ≠ ping[1] ∧ (0x01 : Byte) ≠ ping[14] ∧
      validate Config.default (ping.set 9 5) = .invalid .framingLength ∧
      validate Config.default (ping.set 9 4) = .invalid .integrity ∧
      validate Config.default (ping.set 16 0xD3) = .invalid .integrity := by decide

/-! ### Witnesses: channels -/

/-- A channel of four slots, indices within it. -/
theorem wf_four (slots : Vector Byte 4) (h t : BitVec 8) (hh : h.toNat < 4) (ht : t.toNat < 4) :
    (Channel.mk slots.toList h t).Wf 4 := ⟨by simp, hh, ht⟩

theorem witness_PushWritesOneSlotOrIsFull :
    (Channel.mk [1, 2, 3, 4] 3 0).Wf 4 ∧ ((3#8).toNat + 1) % 4 = (0#8).toNat ∧
      (Channel.mk [1, 2, 3, 4] 3 1).Wf 4 ∧ ((3#8).toNat + 1) % 4 ≠ (1#8).toNat :=
  ⟨wf_four #v[1, 2, 3, 4] 3 0 (by decide) (by decide), by decide,
    wf_four #v[1, 2, 3, 4] 3 1 (by decide) (by decide), by decide⟩
theorem witness_ChannelRefinesBoundedQueue :
    (Channel.mk [1, 2] 1 0).Wf 2 ∧ (Channel.mk [1, 2] 0 0).Wf 2 ∧
      (Channel.mk (List.replicate 256 0) 255 0).Wf 256 :=
  ⟨⟨rfl, by decide, by decide⟩, ⟨rfl, by decide, by decide⟩,
    ⟨List.length_replicate, by decide, by decide⟩⟩
theorem witness_OccupancyRange :
    (Channel.mk [1, 2, 3, 4] 1 3).Wf 4 ∧ (Channel.mk [1, 2, 3, 4] 1 3).occupancy 4 = 2 ∧
      (Channel.mk [1, 2, 3, 4] 3 0).occupancy 4 = 3 ∧ (Channel.mk [1, 2, 3, 4] 2 2).occupancy 4 = 0 :=
  ⟨wf_four #v[1, 2, 3, 4] 1 3 (by decide) (by decide), by decide, by decide, by decide⟩

/-! ### Witnesses: states -/

/-- Reset values of the small machine with a schedule. -/
def idle (turns : List Turn) : State := { State.resetWith small with turns := turns }

theorem zero_four : (0#8).toNat < 4 := by decide
theorem one_four : (1#8).toNat < 4 := by decide
theorem zero_nineteen : (0#8).toNat < 19 := by decide

theorem idle_inv (turns : List Turn) : (idle turns).Inv :=
  ⟨legal_small, rfl, ⟨rfl, zero_four, zero_four⟩, ⟨rfl, zero_nineteen, zero_nineteen⟩, .inl ⟨rfl, rfl⟩⟩

/-- A response of f being queued, byte k next, TX holding n bytes. -/
def emitting (f : Frame) (k : Fin 18) (n : BitVec 8) (turns : List Turn) : State :=
  { State.resetWith small with
    buf := f, started := true, idx := 18#8, phase := .emit k, tx := ⟨List.replicate 19 0, n, 0⟩,
    turns := turns }

theorem emitting_inv (f : Frame) (k : Fin 18) (n : BitVec 8) (h : n.toNat < 19) (turns : List Turn) :
    (emitting f k n turns).Inv :=
  ⟨legal_small, rfl, ⟨rfl, zero_four, zero_four⟩, ⟨rfl, h, zero_nineteen⟩, ⟨rfl, rfl⟩⟩

/-- A frame with i bytes collected, one more byte in RX, the schedule given. -/
def collecting (i : BitVec 8) (b : Byte) (turns : List Turn) : State :=
  { State.resetWith small with
    buf := ping, started := true, idx := i, rx := ⟨[b, 0, 0, 0], 1, 0⟩, turns := turns }

theorem collecting_inv (i : BitVec 8) (b : Byte) (turns : List Turn) (h1 : 1 ≤ i.toNat)
    (h2 : i.toNat ≤ 17) : (collecting i b turns).Inv :=
  ⟨legal_small, rfl, ⟨rfl, one_four, zero_four⟩, ⟨rfl, zero_nineteen, zero_nineteen⟩,
    .inr ⟨⟨rfl, h1, h2⟩, rfl⟩⟩

/-- The RX channel after the byte of `collecting` is popped. -/
def popped (b : Byte) : Channel := ⟨[b, 0, 0, 0], 1, 1⟩

theorem eighteen_le : 18 ≤ small.bufSize := by decide

/-- With 17 bytes of a frame collected, the next step judges it. -/
theorem completing (b : Byte) :
    (collecting 17 b [.engine]).Completing (collecting 17 b []) b (popped b) :=
  ⟨rfl, rfl, rfl, rfl, eighteen_le, rfl⟩

theorem witness_BurstFillsRxAndDropsRest :
    (idle ([1, 2, 3, 4, 5].map Turn.linkPush ++ [])).Inv ∧ small.rxSlots - 1 ≤ [1, 2, 3].length ∧
      (idle []).rx.head = (idle []).rx.tail := ⟨idle_inv _, by decide, rfl⟩
theorem witness_TxReadyArmsAndDisarms :
    small.Legal ∧ (idle []).tx.Wf 19 ∧
      (idle []).tx.push 19 7 = some ⟨7 :: List.replicate 18 0, 1, 0⟩ ∧
      (emitting ping 3 1 []).tx.pop 19 = some (0, ⟨List.replicate 19 0, 1, 1⟩) ∧
      (emitting ping 3 2 []).tx.pop 19 = some (0, ⟨List.replicate 19 0, 2, 1⟩) ∧
      (emitting ping 3 1 [.engine]).Inv ∧
      (emitting ping 3 1 [.engine]).nextTurn = (some .engine, emitting ping 3 1 []) ∧
      (emitting ping 3 1 [.engine]).txReady = true :=
  ⟨legal_small, ⟨rfl, by decide, by decide⟩, rfl, rfl, rfl, emitting_inv _ _ _ (by decide) _, rfl, rfl⟩
theorem witness_IdleByteOpensFrameOrIsDiscarded :
    ∀ b ∈ [(0xAA : Byte), 0x55],
      { collecting 0 b [.engine] with started := false }.nextTurn =
          (some .engine, { collecting 0 b [] with started := false }) ∧
        (collecting 0 b []).rx.pop 4 = some (b, popped b) := by
  intro b _; exact ⟨rfl, rfl⟩
/-- The ends of the range of the cursor before the 18th byte, with a start marker as data. -/
theorem witness_CollectedByteIsData :
    ∀ i ∈ [(1 : BitVec 8), 16],
      (collecting i 0xAA [.engine]).nextTurn = (some .engine, collecting i 0xAA []) ∧
        i.toNat < 17 ∧ 18 ≤ small.bufSize ∧
        (collecting i 0xAA []).rx.pop 4 = some (0xAA, popped 0xAA) := by
  intro i h
  refine ⟨rfl, ?_, by decide, rfl⟩
  revert i; decide
theorem witness_EngineWaitsOnEmptyRx :
    (idle [.engine]).nextTurn = (some .engine, idle []) ∧ (idle []).phase = .run ∧
      (idle []).rx.head = (idle []).rx.tail := ⟨rfl, rfl, rfl⟩
theorem witness_OverflowGuardIsDead :
    (collecting 20 1 [.engine]).nextTurn = (some .engine, collecting 20 1 []) ∧
      small.bufSize ≤ (20#8).toNat ∧ (collecting 20 1 []).rx.pop 4 = some (1, popped 1) ∧
      (idle []).Inv ∧ step (idle []) = .next (idle []) := ⟨rfl, by decide, rfl, idle_inv _, rfl⟩
theorem witness_InvalidFrameIsDroppedSilently :
    (collecting 17 0 [.engine]).Completing (collecting 17 0 []) 0 (popped 0) ∧
      validate small (ping.set 17 0) = .invalid .framingMarker := ⟨completing 0, by decide⟩
theorem witness_StepRunsDecodedInstruction :
    (collecting 17 0x55 [.engine]).Completing (collecting 17 0x55 []) 0x55 (popped 0x55) ∧
      decode small (ping.set 17 0x55).toList = .instr (.ping zeros) := ⟨completing 0x55, by decide⟩
theorem witness_UnknownCommandIsAnswered :
    State.Completing { collecting 17 0x55 [.engine] with buf := unknown }
        { collecting 17 0x55 [] with buf := unknown } 0x55 (popped 0x55) ∧
      small.Legal ∧ decode small (unknown.set 17 0x55).toList = .rejected (.unknownCommand 0) :=
  ⟨⟨rfl, rfl, rfl, rfl, by decide, rfl⟩, legal_small, by decide⟩

/-- Witness for every statement whose one hypothesis is that a step answers a next state: it is met by a
step that forms a response. -/
theorem witness_step_next :
    step (collecting 17 0x55 [.engine]) =
      .next (({ collecting 18 0x55 [] with rx := popped 0x55 }).respond true) := by
  rfl
theorem witness_ResponseOnlyWhenFrameCompletes :
    ∃ t, step (collecting 17 0x55 [.engine]) = .next t := ⟨_, witness_step_next⟩
theorem witness_OnlyReadMemReads : ∃ t, step (collecting 17 0x55 [.engine]) = .next t :=
  ⟨_, witness_step_next⟩
theorem witness_NoStepWritesTargetMemory : ∃ t, step (collecting 17 0x55 [.engine]) = .next t :=
  ⟨_, witness_step_next⟩
theorem witness_NoStepChangesParameters : ∃ t, step (collecting 17 0x55 [.engine]) = .next t :=
  ⟨_, witness_step_next⟩
theorem witness_TraceOnlyGrows : ∃ t, step (collecting 17 0x55 [.engine]) = .next t :=
  ⟨_, witness_step_next⟩
theorem witness_StepKeepsInvariant :
    (collecting 17 0x55 [.engine]).Inv ∧ ∃ t, step (collecting 17 0x55 [.engine]) = .next t :=
  ⟨collecting_inv _ _ _ (by decide) (by decide), _, witness_step_next⟩
theorem witness_StepKeepsEmittedFrameValid :
    (collecting 17 0x55 [.engine]).Inv ∧ (collecting 17 0x55 [.engine]).EmitsValid ∧
      (∃ t, step (collecting 17 0x55 [.engine]) = .next t) :=
  ⟨collecting_inv _ _ _ (by decide) (by decide), trivial, _, witness_step_next⟩

/-- One witness per path: a block reset, the drop of a frame, the last byte of a response. -/
theorem witness_CursorReturnsToIdleOnThreePaths :
    (collecting 5 1 [.blockReset]).Inv ∧
      step (collecting 5 1 [.blockReset]) = .next (blockReset (collecting 5 1 [])) ∧
      (collecting 17 0 [.engine]).Inv ∧
      step (collecting 17 0 [.engine]) =
        .next ({ collecting 18 0 [] with rx := popped 0, buf := ping.set 17 0 }.drop .framingMarker) ∧
      (emitting ping 17 0 [.engine]).Inv ∧
      step (emitting ping 17 0 [.engine]) =
        .next ({ emitting ping 17 0 [] with
          tx := ⟨0x55 :: List.replicate 18 0, 1, 0⟩ }.endResponse) :=
  ⟨collecting_inv _ _ _ (by decide) (by decide), rfl, collecting_inv _ _ _ (by decide) (by decide), rfl,
    emitting_inv _ _ _ (by decide) _, rfl⟩

/-! ### Witnesses: commands (each asks for legal parameters alone) -/

theorem witness_PingAnswersSuccess : (judging ping).cfg.Legal := legal_small
theorem witness_ReadMemAnswersWhatTheBackendSays : (judging readMem).cfg.Legal := legal_small
theorem witness_WriteMemAnswersFailure : (judging writeMem).cfg.Legal := legal_small
theorem witness_RegisterCommandsAnswerFailure : (judging readReg).cfg.Legal := legal_small
theorem witness_ResetCommandResetsNothing : (judging reset).cfg.Legal := legal_small
theorem witness_ResponseFlagsBitByBit :
    Config.default.flagBit.ack ≠ Config.default.flagBit.statusError := by decide
theorem witness_ResponseIsAValidFrame :
    (judging ping).cfg.Legal ∧ decode small (judging ping).buf.toList = .instr (.ping zeros) ∧
      exec (.ping zeros) (judging ping) = .next ((judging ping).respond true) ∧
      decode small (judging unknown).buf.toList = .rejected (.unknownCommand 0) ∧
      dispatch (judging unknown) = .next ((judging unknown).respond false) :=
  ⟨legal_small, by decide, rfl, by decide, rfl⟩

/-! ### Witnesses: queuing, the link, the agents, reset, the whole machine -/

theorem witness_EmitOffersOneByte :
    (emitting ping 17 18 [.engine]).nextTurn = (some .engine, emitting ping 17 18 []) ∧
      (emitting ping 17 18 []).tx.push 19 0x55 = none ∧
      (emitting ping 0 0 [.engine]).nextTurn = (some .engine, emitting ping 0 0 []) ∧
      ((emitting ping 0 0 []).tx.push 19 0xAA).isSome = true := ⟨rfl, rfl, rfl, rfl⟩
/-- TX_N = 19 with TX empty is the boundary: exactly 18 bytes of room. -/
theorem witness_ResponseIsQueuedWholeInOrder :
    (emitting ping 0 0 (List.replicate 18 .engine ++ [])).Inv ∧
      (emitting ping 0 0 []).tx.occupancy 19 + 18 ≤ 19 - 1 :=
  ⟨emitting_inv _ _ _ (by decide) _, by decide⟩
/-- TX with room for one byte, and full (TX_N = 19, holding 17 and 18). -/
theorem witness_DropContinueOffersEveryByteOnce :
    (emitting ping 0 17 (List.replicate 18 .engine ++ [])).Inv ∧
      (emitting ping 0 18 (List.replicate 18 .engine ++ [])).Inv ∧
      small.txFullPolicy = .dropContinue :=
  ⟨emitting_inv _ _ _ (by decide) _, emitting_inv _ _ _ (by decide) _, rfl⟩
/-- A response about to be queued under AbortRest, TX holding n bytes. -/
def aborting (n : BitVec 8) (turns : List Turn) : State :=
  { emitting ping 0 n turns with cfg := { small with txFullPolicy := .abortRest } }
theorem legal_aborting : Config.Legal { small with txFullPolicy := .abortRest } := by decide
theorem aborting_inv (n : BitVec 8) (h : n.toNat < 19) (turns : List Turn) : (aborting n turns).Inv :=
  ⟨legal_aborting, rfl, ⟨rfl, zero_four, zero_four⟩, ⟨rfl, h, zero_nineteen⟩, ⟨rfl, rfl⟩⟩
/-- TX full, so that byte 0 is lost, and TX with room for 17 bytes, so that byte 17 is. -/
theorem witness_AbortRestEndsAtFirstLostByte :
    (aborting 18 (List.replicate 1 .engine ++ [])).Inv ∧ (aborting 18 []).txRoom = (0 : Fin 18).val ∧
      (aborting 1 (List.replicate 18 .engine ++ [])).Inv ∧
      (aborting 1 []).txRoom = (17 : Fin 18).val ∧
      (aborting 18 []).phase = .emit 0 ∧ (aborting 18 []).cfg.txFullPolicy = .abortRest :=
  ⟨aborting_inv _ (by decide) _, by decide, aborting_inv _ (by decide) _, by decide, rfl, rfl⟩
theorem witness_LinkPushPushesOrRecordsOverflow :
    (idle [.linkPush 7]).turns = .linkPush 7 :: [] ∧
      ((idle []).rx.head.toNat + 1) % 4 ≠ (idle []).rx.tail.toNat := ⟨rfl, by decide⟩
theorem witness_LinkPopDeliversOldestByte :
    (idle [.linkPop]).turns = .linkPop :: [] ∧ (emitting ping 0 1 [.linkPop]).turns = .linkPop :: [] ∧
      (emitting ping 0 1 []).tx.head ≠ (emitting ping 0 1 []).tx.tail := ⟨rfl, rfl, by decide⟩
theorem witness_EachAgentKeepsToItsOwnIndices :
    (idle [.linkPop]).nextTurn = (some .linkPop, idle []) ∧
      (∃ t, step (idle [.linkPop]) = .next t) ∧
      (collecting 17 0x55 [.engine]).nextTurn = (some .engine, collecting 17 0x55 []) ∧
      ∃ t, step (collecting 17 0x55 [.engine]) = .next t :=
  ⟨rfl, ⟨_, rfl⟩, rfl, _, witness_step_next⟩
theorem witness_EngineAndPushCommute :
    (collecting 17 0x55 []).Inv ∧ (collecting 17 0x55 []).engineEnabled = true ∧
      (collecting 17 0x55 []).rx.occupancy 4 < 4 - 1 :=
  ⟨collecting_inv _ _ _ (by decide) (by decide), rfl, by decide⟩
theorem witness_ResetValues : small.Legal := legal_small
theorem witness_BlockResetResetsEverything :
    (emitting ping 4 3 [.blockReset]).turns = .blockReset :: [] := rfl
/-- Quiescent with a partial frame in the buffer: R193 does not ask for IDLE. -/
theorem witness_QuiescentStateWaits :
    (idle []).Inv ∧ (idle []).Quiescent ∧
      State.Inv { collecting 9 0 [] with rx := popped 0 } ∧
      State.Quiescent { collecting 9 0 [] with rx := popped 0 } :=
  ⟨idle_inv _, ⟨rfl, rfl, rfl⟩,
    ⟨legal_small, rfl, ⟨rfl, by decide, by decide⟩, ⟨rfl, by decide, by decide⟩,
      .inr ⟨⟨rfl, by decide, by decide⟩, rfl⟩⟩, ⟨rfl, rfl, rfl⟩⟩
theorem witness_ResetMeetsInvariant : small.Legal := legal_small
/-- A state with i bytes of a frame collected and 17 zero bytes in RX. -/
def flushing (i : BitVec 8) : State :=
  { State.resetWith { small with rxSlots := 18 } with
    buf := ping, started := true, idx := i, rx := ⟨List.replicate 18 0, 17, 0⟩,
    turns := List.replicate 17 .engine ++ [] }
/-- The cursor at both ends of COLLECTING. -/
theorem witness_FlushBringsParserToIdle :
    (flushing 1).Inv ∧ (flushing 17).Inv ∧ small.startMarker ≠ 0#8 ∧ small.endMarker ≠ 0#8 ∧
      (flushing 1).phase = .run ∧ (flushing 17).phase = .run ∧
      (flushing 1).rx.contents 18 = List.replicate 17 0#8 ∧
      (flushing 17).rx.contents 18 = List.replicate 17 0#8 :=
  ⟨⟨by decide, rfl, ⟨rfl, by decide, by decide⟩, ⟨rfl, by decide, by decide⟩,
      .inr ⟨⟨rfl, by decide, by decide⟩, rfl⟩⟩,
    ⟨by decide, rfl, ⟨rfl, by decide, by decide⟩, ⟨rfl, by decide, by decide⟩,
      .inr ⟨⟨rfl, by decide, by decide⟩, rfl⟩⟩,
    by decide, by decide, rfl, rfl, by decide, by decide⟩
/-- A response at byte k with 17 zero bytes waiting in RX. -/
def flushingEmit (k : Fin 18) : State :=
  { flushing 18 with phase := .emit k, turns := List.replicate (18 - k.val + 17) .engine ++ [] }
/-- The first and the last byte of a response. -/
theorem witness_FlushEndsResponseFirst :
    (flushingEmit 0).Inv ∧ (flushingEmit 17).Inv ∧ (flushingEmit 0).phase = .emit 0 ∧
      (flushingEmit 17).phase = .emit 17 ∧ small.startMarker ≠ 0#8 ∧ small.endMarker ≠ 0#8 ∧
      (flushingEmit 0).rx.contents 18 = List.replicate 17 0#8 ∧
      (flushingEmit 17).rx.contents 18 = List.replicate 17 0#8 :=
  ⟨⟨by decide, rfl, ⟨rfl, by decide, by decide⟩, ⟨rfl, by decide, by decide⟩, ⟨rfl, rfl⟩⟩,
    ⟨by decide, rfl, ⟨rfl, by decide, by decide⟩, ⟨rfl, by decide, by decide⟩, ⟨rfl, rfl⟩⟩,
    rfl, rfl, by decide, by decide, by decide, by decide⟩
/-- A frame with 17 bytes collected and RX empty, RX_N = 4: one zero byte suffices. -/
def waiting : State :=
  { collecting 17 0 [.linkPush 0#8, .engine] with rx := Channel.reset 4 }
theorem witness_FlushUnderEverySchedule :
    waiting.Inv ∧ waiting.turns = [.linkPush 0#8, .engine] ++ [] ∧
      [Turn.linkPush 0#8, .engine].count (.linkPush 0#8) = 1 ∧ waiting.rx.head = waiting.rx.tail ∧
      18 ≤ waiting.idx.toNat + 1 ∧
      ∃ t, core.run 2 waiting = .next t ∧
        t.trace.countP Event.isRxOverflow = waiting.trace.countP Event.isRxOverflow ∧
        t.phase = .run ∧ t.rx.head = t.rx.tail :=
  ⟨⟨legal_small, rfl, ⟨rfl, zero_four, zero_four⟩, ⟨rfl, zero_nineteen, zero_nineteen⟩,
      .inr ⟨⟨rfl, by decide, by decide⟩, rfl⟩⟩, rfl, by decide, rfl, by decide, _, rfl, rfl, rfl, rfl⟩
/-- Two idle states whose buffers and slots hold different bytes. -/
theorem witness_UnwrittenBytesAreUnobservable :
    (idle [.engine]).Inv ∧
      State.Inv { idle [.engine] with buf := ping, rx := ⟨[1, 2, 3, 4], 0, 0⟩, headroom := [7, 7] } ∧
      (idle [.engine]).Alike
        { idle [.engine] with buf := ping, rx := ⟨[1, 2, 3, 4], 0, 0⟩, headroom := [7, 7] } ∧
      step (idle [.engine]) = .next (idle []) :=
  ⟨idle_inv _,
    ⟨legal_small, rfl, ⟨rfl, zero_four, zero_four⟩, ⟨rfl, zero_nineteen, zero_nineteen⟩,
      .inl ⟨rfl, rfl⟩⟩,
    ⟨rfl, rfl, rfl, rfl, fun i h => absurd h (Nat.not_lt_zero i.val), rfl, rfl, rfl, rfl, rfl, rfl, rfl,
      rfl, rfl, rfl, rfl⟩, rfl⟩
/-- One witness per class; each step answers a next state whose trace is the event. -/
theorem witness_ErrorClassDecidesWhatTheHostSees :
    (collecting 17 0 [.engine]).Inv ∧
      view (step (collecting 17 0 [.engine])) = some (false, 0, .run, [.frameDrop .framingMarker]) ∧
      view (step { collecting 17 0x55 [.engine] with buf := ping.set 14 1 }) =
        some (false, 0, .run, [.frameDrop .integrity]) ∧
      view (step { collecting 17 0x55 [.engine] with buf := unknown }) =
        some (true, 18, .emit 0, [.response 0 false]) ∧
      view (step { idle [.linkPush 9] with rx := ⟨[1, 2, 3, 4], 3, 0⟩ }) =
        some (false, 0, .run, [.rxOverflow 9]) :=
  ⟨collecting_inv _ _ _ (by decide) (by decide), by decide, by decide, by decide, by decide⟩
theorem witness_FairCompletionReachesQuiescence :
    (emitting ping 0 18 []).Inv ∧ (emitting ping 0 18 []).turns = [] ∧
      (collecting 17 0x55 []).Inv ∧ (collecting 17 0x55 []).turns = [] :=
  ⟨emitting_inv _ _ _ (by decide) _, rfl, collecting_inv _ _ _ (by decide) (by decide), rfl⟩

end Sys2Proof.Tests
end

section
/-! SUPPORT. The build-time parameters (00_scope.md R4, 10_state.md R30): what each turn of the block leaves of
`State.cfg`, and from that every step. -/

namespace Sys2Proof.Machine

variable {s t : State}

/-! ### The engine -/

@[simp] theorem State.drop_cfg (s : State) (cls : DropClass) : (s.drop cls).cfg = s.cfg := rfl

@[simp] theorem State.endResponse_cfg (s : State) : s.endResponse.cfg = s.cfg := rfl

@[simp] theorem State.storeByte_cfg (s : State) (i : Nat) (b : Byte) : (s.storeByte i b).cfg = s.cfg := by
  rw [storeByte_rest]

@[simp] theorem State.collected_cfg (s : State) (b : Byte) (rx : Channel) :
    (s.collected b rx).cfg = s.cfg := rfl

@[simp] theorem appendByte_cfg (b : Byte) (s : State) : (appendByte b s).cfg = s.cfg := by
  simp [appendByte]

@[simp] theorem parseIdle_cfg (b : Byte) (s : State) : (parseIdle b s).cfg = s.cfg := by
  by_cases h : b = s.cfg.startMarker
  · simp [parseIdle_marker h]
  · simp [parseIdle_other h]

theorem complete_cfg (h : complete s = .next t) : t.cfg = s.cfg := by
  obtain ⟨⟨hcfg, -⟩, -⟩ := complete_frame h
  exact hcfg

theorem engineByte_cfg (h : engineByte s = .next t) : t.cfg = s.cfg := by
  rcases engineByte_cases s with
    ⟨-, e⟩ | ⟨b, rx, -, ⟨-, e⟩ | ⟨-, -, e⟩ | ⟨-, -, -, e⟩ | ⟨-, -, -, e⟩⟩ <;> rw [e] at h
  case inr.inr.inr.inr => exact (complete_cfg h).trans (State.collected_cfg s b rx)
  all_goals cases h; simp

@[simp] theorem nextEmit_cfg (k : Fin 18) (s : State) : (nextEmit k s).cfg = s.cfg := by
  rw [nextEmit_eq]
  split <;> simp

@[simp] theorem engineEmit_cfg (k : Fin 18) (s : State) : (engineEmit k s).cfg = s.cfg := by
  rcases engineEmit_cases k s with ⟨tx, -, e⟩ | ⟨-, -, e⟩ | ⟨-, -, e⟩ <;> simp [e]

theorem engineTurn_cfg (h : engineTurn s = .next t) : t.cfg = s.cfg := by
  cases hp : s.phase with
  | run =>
    rw [engineTurn_run hp] at h
    exact engineByte_cfg h
  | emit k =>
    rw [engineTurn_emit hp] at h
    cases h
    exact engineEmit_cfg k s

/-! ### The link and the schedule -/

@[simp] theorem linkPush_cfg (b : Byte) (s : State) : (linkPush b s).cfg = s.cfg := by
  rcases linkPush_cases b s with ⟨rx, -, e⟩ | ⟨-, e⟩ <;> simp [e]

@[simp] theorem linkPop_cfg (s : State) : (linkPop s).cfg = s.cfg := by
  rcases linkPop_cases s with ⟨b, tx, -, e⟩ | ⟨-, e⟩ <;> simp [e]

@[simp] theorem blockReset_cfg (s : State) : (blockReset s).cfg = s.cfg :=
  (blockReset_fields s).left

theorem nextTurn_cfg {u : State} {turn : Option Turn} (h : s.nextTurn = (turn, u)) : u.cfg = s.cfg :=
  (nextTurn_fields h).left

theorem takeTurn_cfg {turn : Turn} (h : takeTurn turn s = .next t) : t.cfg = s.cfg := by
  cases turn with
  | linkPush b => cases h; exact linkPush_cfg b s
  | linkPop => cases h; exact linkPop_cfg s
  | engine => exact engineTurn_cfg h
  | blockReset => cases h; exact blockReset_cfg s

theorem step_cfg (h : step s = .next t) : t.cfg = s.cfg := by
  rcases step_cases h with ⟨u, hn, rfl⟩ | ⟨turn, u, hn, ht⟩
  · exact nextTurn_cfg hn
  · exact (takeTurn_cfg ht).trans (nextTurn_cfg hn)

/-- Settles O51: a step waits or takes one turn, and no turn changes the configuration. -/
theorem noStepChangesParameters : Obligations.NoStepChangesParameters :=
  fun _ _ h => step_cfg h

end Sys2Proof.Machine
end

section
/-! SUPPORT. The byte channels between well-formed states (40_byte_channel.md R90 to R92): both operations keep a
channel well formed, and act on what it holds as a push at the end and a pop at the front. -/

namespace Sys2Proof.Machine

variable {n : Nat} {ch ch' : Channel} {b : Byte}

/-! ### Well-formedness -/

theorem Channel.Wf.push (h : ch.Wf n) (hn : n ≤ 256) (hp : ch.push n b = some ch') : ch'.Wf n := by
  obtain ⟨-, rfl⟩ := push_eq_some hp
  have hpos : 0 < n := Nat.zero_lt_of_lt h.head
  refine ⟨by simpa using h.slots, ?_, h.tail⟩
  rw [nextIndex_toNat n hpos hn]
  exact Nat.mod_lt _ hpos

theorem Channel.Wf.pop (h : ch.Wf n) (hn : n ≤ 256) (hp : ch.pop n = some (b, ch')) : ch'.Wf n := by
  obtain ⟨-, -, rfl⟩ := pop_eq_some hp
  have hpos : 0 < n := Nat.zero_lt_of_lt h.head
  refine ⟨h.slots, h.head, ?_⟩
  rw [nextIndex_toNat n hpos hn]
  exact Nat.mod_lt _ hpos

theorem Channel.wf_of_zero {slots : List Byte} (h : slots.length = n) (hn : 0 < n) :
    Channel.Wf n ⟨slots, 0#8, 0#8⟩ :=
  ⟨h, hn, hn⟩

/-! ### What a channel holds -/

/-- The occupancy without the modulus: the bytes held lie in one run of slots, or wrap once. -/
theorem Channel.occupancy_cases (h : ch.Wf n) :
    (ch.tail.toNat ≤ ch.head.toNat ∧ ch.tail.toNat + ch.occupancy n = ch.head.toNat) ∨
      (ch.head.toNat < ch.tail.toNat ∧ ch.tail.toNat + ch.occupancy n = ch.head.toNat + n) := by
  have hh := h.head
  have ht := h.tail
  unfold Channel.occupancy
  by_cases hle : ch.tail.toNat ≤ ch.head.toNat
  · rw [(by omega : ch.head.toNat + n - ch.tail.toNat = ch.head.toNat - ch.tail.toNat + n),
      Nat.add_mod_right, Nat.mod_eq_of_lt (by omega)]
    omega
  · rw [Nat.mod_eq_of_lt (by omega)]
    omega

theorem Channel.occupancy_lt (h : ch.Wf n) : ch.occupancy n < n :=
  Nat.mod_lt _ (Nat.zero_lt_of_lt h.head)

/-- The index after i without the modulus. -/
theorem nextIndex_cases (hn : n ≤ 256) {i : BitVec 8} (hi : i.toNat < n) :
    (i.toNat + 1 = n ∧ (nextIndex n i).toNat = 0) ∨
      (i.toNat + 1 < n ∧ (nextIndex n i).toNat = i.toNat + 1) := by
  rw [nextIndex_toNat n (Nat.zero_lt_of_lt hi) hn]
  by_cases hlast : i.toNat + 1 = n
  · rw [hlast, Nat.mod_self]
    omega
  · rw [Nat.mod_eq_of_lt (by omega)]
    omega

theorem Channel.occupancy_push (h : ch.Wf n) (hn : n ≤ 256) (hp : ch.push n b = some ch') :
    ch'.occupancy n = ch.occupancy n + 1 := by
  have hafter := Channel.occupancy_cases (h.push hn hp)
  have hbefore := Channel.occupancy_cases h
  have hnext := nextIndex_cases hn h.head
  obtain ⟨hroom, rfl⟩ := push_eq_some hp
  rw [← nextIndex_toNat n (Nat.zero_lt_of_lt h.head) hn] at hroom
  have ht := h.tail
  dsimp only at hafter
  omega

theorem Channel.occupancy_pop (h : ch.Wf n) (hn : n ≤ 256) (hp : ch.pop n = some (b, ch')) :
    ch.occupancy n = ch'.occupancy n + 1 := by
  have hafter := Channel.occupancy_cases (h.pop hn hp)
  have hbefore := Channel.occupancy_cases h
  have hnext := nextIndex_cases hn h.tail
  obtain ⟨hne, -, rfl⟩ := pop_eq_some hp
  have hne' : ch.head.toNat ≠ ch.tail.toNat := fun e => hne (BitVec.eq_of_toNat_eq e)
  have hh := h.head
  dsimp only at hafter
  omega

/-- The slot `i` places after the oldest byte, without the modulus. -/
theorem Channel.slot_cases (h : ch.Wf n) {i : Nat} (hi : i < n) :
    (ch.tail.toNat + i < n ∧ (ch.tail.toNat + i) % n = ch.tail.toNat + i) ∨
      (n ≤ ch.tail.toNat + i ∧ (ch.tail.toNat + i) % n + n = ch.tail.toNat + i) := by
  have ht := h.tail
  by_cases hlt : ch.tail.toNat + i < n
  · exact .inl ⟨hlt, Nat.mod_eq_of_lt hlt⟩
  · rw [Nat.mod_eq_sub_mod (by omega), Nat.mod_eq_of_lt (by omega)]
    omega

/-- The slot after the bytes a channel holds is the one at head. -/
theorem Channel.slot_occupancy (h : ch.Wf n) :
    (ch.tail.toNat + ch.occupancy n) % n = ch.head.toNat := by
  have hh := h.head
  have hocc := Channel.occupancy_cases h
  have hslot := Channel.slot_cases h (Channel.occupancy_lt h)
  omega

/-- The slots of the bytes a channel holds are not the one at head. -/
theorem Channel.slot_ne_head (h : ch.Wf n) {i : Nat} (hi : i < ch.occupancy n) :
    (ch.tail.toNat + i) % n ≠ ch.head.toNat := by
  have hh := h.head
  have hocc := Channel.occupancy_cases h
  have hslot := Channel.slot_cases h (Nat.lt_trans hi (Channel.occupancy_lt h))
  omega

/-- A push that answers Ok appends its byte (R90). -/
theorem Channel.contents_push (h : ch.Wf n) (hn : n ≤ 256) (hp : ch.push n b = some ch') :
    ch'.contents n = ch.contents n ++ [b] := by
  have hocc := Channel.occupancy_push h hn hp
  obtain ⟨-, rfl⟩ := push_eq_some hp
  have hlast : (ch.slots.set ch.head.toNat b).getD ch.head.toNat 0#8 = b := by
    simp [List.getD, h.slots, h.head]
  unfold Channel.contents
  rw [hocc, List.range_succ, List.map_append, List.map_singleton, Channel.slot_occupancy h, hlast]
  congr 1
  refine List.map_congr_left fun i hi => ?_
  have hne := Channel.slot_ne_head h (List.mem_range.mp hi)
  simp [List.getD, List.getElem?_set_ne hne.symm]

/-- A pop that answers a byte removes the oldest (R91). -/
theorem Channel.contents_pop (h : ch.Wf n) (hn : n ≤ 256) (hp : ch.pop n = some (b, ch')) :
    ch.contents n = b :: ch'.contents n := by
  have hocc := Channel.occupancy_pop h hn hp
  obtain ⟨-, rfl, rfl⟩ := pop_eq_some hp
  have hpos : 0 < n := Nat.zero_lt_of_lt h.head
  unfold Channel.contents
  rw [hocc, List.range_succ_eq_map, List.map_cons, List.map_map, Nat.add_zero, Nat.mod_eq_of_lt h.tail]
  congr 1
  refine List.map_congr_left fun i _ => ?_
  rw [Function.comp_apply, nextIndex_toNat n hpos hn, Nat.mod_add_mod, Nat.succ_eq_add_one,
    Nat.add_assoc, Nat.add_comm 1 i]

end Sys2Proof.Machine
end

section
/-! SUPPORT. The state invariant (10_state.md R33): one rule for each operation a turn is written with, the turns
assembled from them, and from these the two statements about reset and about every step. -/

namespace Sys2Proof.Machine

variable {s t : State}

/-! ### Legal parameters (R4) -/

section
variable {c : Config}

theorem rxSlots_pos (h : c.Legal) : 0 < c.rxSlots := by
  obtain ⟨-, -, -, ⟨hlow, -⟩, -⟩ := h
  omega

theorem rxSlots_le (h : c.Legal) : c.rxSlots ≤ 256 := by
  obtain ⟨-, -, -, ⟨-, hhigh⟩, -⟩ := h
  exact hhigh

theorem txSlots_pos (h : c.Legal) : 0 < c.txSlots := by
  obtain ⟨-, -, -, -, hlow, -⟩ := h
  omega

theorem txSlots_le (h : c.Legal) : c.txSlots ≤ 256 := by
  obtain ⟨-, -, -, -, -, hhigh⟩ := h
  exact hhigh

end

/-! ### The cursor and the phase -/

theorem sequenced_run_iff (hp : s.phase = .run) :
    s.Sequenced ↔ s.Idle ∨ (s.Collecting ∧ regSof s.buf = s.cfg.startMarker) := by
  simp only [State.Sequenced, hp]

theorem sequenced_emit_iff {k : Fin 18} (hp : s.phase = .emit k) : s.Sequenced ↔ s.Complete := by
  simp only [State.Sequenced, hp]

theorem sequenced_of_idle (hp : s.phase = .run) (h : s.Idle) : s.Sequenced :=
  (sequenced_run_iff hp).mpr (.inl h)

theorem sequenced_of_collecting (hp : s.phase = .run) (h : s.Collecting)
    (hsof : regSof s.buf = s.cfg.startMarker) : s.Sequenced :=
  (sequenced_run_iff hp).mpr (.inr ⟨h, hsof⟩)

theorem sequenced_of_complete {k : Fin 18} (hp : s.phase = .emit k) (h : s.Complete) : s.Sequenced :=
  (sequenced_emit_iff hp).mpr h

/-- A frame under way in RUN is being collected, and began with the start marker. -/
theorem State.Inv.collecting (h : s.Inv) (hp : s.phase = .run) (hs : s.started = true) :
    s.Collecting ∧ regSof s.buf = s.cfg.startMarker := by
  rcases (sequenced_run_iff hp).mp h.sequenced with ⟨hidle, -⟩ | hcol
  · rw [hs] at hidle; cases hidle
  · exact hcol

theorem State.Inv.idx_lt (h : s.Inv) (hp : s.phase = .run) : s.idx.toNat < 18 := by
  rcases (sequenced_run_iff hp).mp h.sequenced with ⟨-, hidx⟩ | ⟨⟨-, -, hhigh⟩, -⟩
  · rw [hidx]; decide
  · omega

/-- While a response is queued the cursor is COMPLETE. -/
theorem State.Inv.complete {k : Fin 18} (h : s.Inv) (hp : s.phase = .emit k) : s.Complete :=
  (sequenced_emit_iff hp).mp h.sequenced

/-- Short of the 18th byte the cursor does not wrap. -/
theorem idx_succ_toNat {i : BitVec 8} (h : i.toNat < 18) : (i + 1#8).toNat = i.toNat + 1 := by
  rw [BitVec.toNat_add, BitVec.toNat_ofNat]; omega

/-! ### The operations -/

/-- A state that keeps the parameters and the storage of a state of the invariant, and whose cursor fits its
phase, meets the invariant. -/
theorem State.Inv.of_sequenced (h : s.Inv) (hcfg : t.cfg = s.cfg) (hhead : t.headroom = s.headroom)
    (hrx : t.rx = s.rx) (htx : t.tx = s.tx) (hseq : t.Sequenced) : t.Inv := by
  refine ⟨?_, ?_, ?_, ?_, hseq⟩
  · rw [hcfg]; exact h.legal
  · rw [hcfg, hhead]; exact h.headroom
  · rw [hcfg, hrx]; exact h.rx
  · rw [hcfg, htx]; exact h.tx

theorem State.Inv.setRx (h : s.Inv) {ch : Channel} (hch : ch.Wf s.cfg.rxSlots) : (s.setRx ch).Inv :=
  ⟨h.legal, h.headroom, hch, h.tx, h.sequenced⟩

theorem State.Inv.setTx (h : s.Inv) {ch : Channel} (hch : ch.Wf s.cfg.txSlots) : (s.setTx ch).Inv :=
  ⟨h.legal, h.headroom, h.rx, hch, h.sequenced⟩

theorem State.Inv.record (h : s.Inv) (e : Event) : (s.record e).Inv :=
  h.of_sequenced rfl rfl rfl rfl h.sequenced

theorem State.Inv.setReply (h : s.Inv) (r : LinkReply) : (s.setReply r).Inv :=
  h.of_sequenced rfl rfl rfl rfl h.sequenced

theorem State.Inv.setTurns (h : s.Inv) (ts : List Turn) : (s.setTurns ts).Inv :=
  h.of_sequenced rfl rfl rfl rfl h.sequenced

theorem State.Inv.endResponse (h : s.Inv) : s.endResponse.Inv :=
  h.of_sequenced rfl rfl rfl rfl (sequenced_of_idle rfl ⟨rfl, rfl⟩)

theorem State.Inv.drop (h : s.Inv) (hp : s.phase = .run) (cls : DropClass) : (s.drop cls).Inv :=
  h.of_sequenced rfl rfl rfl rfl (sequenced_of_idle hp ⟨rfl, rfl⟩)

theorem State.Inv.setPhase_emit (h : s.Inv) (hc : s.Complete) (k : Fin 18) : (s.setPhase (.emit k)).Inv :=
  h.of_sequenced rfl rfl rfl rfl (sequenced_of_complete rfl hc)

/-! ### The parser -/

theorem regSof_set {i : Nat} (hi : i < 18) (b : Byte) (h0 : i ≠ 0) (f : Frame) :
    regSof (f.set i b) = regSof f :=
  Vector.getElem_set_ne hi _ h0

theorem parseIdle_inv (h : s.Inv) (hp : s.phase = .run) (b : Byte) : (parseIdle b s).Inv := by
  by_cases hb : b = s.cfg.startMarker
  · rw [parseIdle_marker hb]
    refine h.of_sequenced rfl rfl rfl rfl (sequenced_of_collecting hp ?_ ?_)
    · exact ⟨rfl, Nat.le_refl 1, by simp⟩
    · simp [regSof, hb]
  · rw [parseIdle_other hb]
    exact h.record _

/-- A byte of a frame before the 18th advances the cursor, and the start marker stays at the front (R112). -/
theorem appendByte_inv (h : s.Inv) (hp : s.phase = .run) (hs : s.started = true) (hi : s.idx ≠ 17#8)
    (b : Byte) : (appendByte b s).Inv := by
  obtain ⟨⟨-, hlow, hhigh⟩, hsof⟩ := h.collecting hp hs
  have hne : s.idx.toNat ≠ 17 := fun e => hi (BitVec.eq_of_toNat_eq e)
  have h18 : s.idx.toNat < 18 := by omega
  have hnext := idx_succ_toNat h18
  rw [appendByte_of_lt b h18]
  refine h.of_sequenced rfl rfl rfl rfl (sequenced_of_collecting hp ⟨hs, ?_, ?_⟩ ?_)
  · rw [State.setCursor_idx, hnext]; omega
  · rw [State.setCursor_idx, hnext]; omega
  · exact (regSof_set h18 b (by omega) _).trans hsof

/-- Judging a collected frame drops it, with the cursor back in IDLE, or answers it, with the cursor COMPLETE
(R114). -/
theorem complete_collected_inv {b : Byte} {rx : Channel} (h : s.Inv) (hrx : rx.Wf s.cfg.rxSlots)
    (hp : s.phase = .run) (hs : s.started = true) (ht : complete (s.collected b rx) = .next t) : t.Inv := by
  obtain ⟨⟨hcfg, hhead, hrx', htx, -, -⟩, hjudged⟩ := complete_frame ht
  refine (h.setRx hrx).of_sequenced hcfg hhead hrx' htx ?_
  rcases hjudged with ⟨cls, -, rfl⟩ | ⟨-, hphase, hstarted, hidx, -⟩
  · exact sequenced_of_idle hp ⟨rfl, rfl⟩
  · exact sequenced_of_complete hphase ⟨hstarted.trans hs, hidx⟩

theorem engineByte_inv (h : s.Inv) (hp : s.phase = .run) (ht : engineByte s = .next t) : t.Inv := by
  rcases engineByte_cases s with ⟨-, e⟩ | ⟨b, rx, hpop, hbyte⟩
  · rw [e] at ht; cases ht
    exact h
  · have hrx : rx.Wf s.cfg.rxSlots := h.rx.pop (rxSlots_le h.legal) hpop
    have hu : (s.setRx rx).Inv := h.setRx hrx
    rcases hbyte with ⟨-, e⟩ | ⟨-, -, e⟩ | ⟨hs, -, hi, e⟩ | ⟨hs, -, -, e⟩ <;> rw [e] at ht
    · cases ht; exact parseIdle_inv hu hp b
    · cases ht; exact hu.drop hp .overflow
    · cases ht; exact appendByte_inv hu hp hs hi b
    · exact complete_collected_inv h hrx hp hs ht

/-! ### The emitter -/

theorem nextEmit_inv (h : s.Inv) (hc : s.Complete) (k : Fin 18) : (nextEmit k s).Inv := by
  rw [nextEmit_eq]
  split
  · exact h.endResponse
  · exact h.setPhase_emit hc _

theorem engineEmit_inv (h : s.Inv) {k : Fin 18} (hp : s.phase = .emit k) : (engineEmit k s).Inv := by
  have hc := h.complete hp
  rcases engineEmit_cases k s with ⟨tx, hpush, e⟩ | ⟨-, -, e⟩ | ⟨-, -, e⟩ <;> rw [e]
  · exact nextEmit_inv (h.setTx (h.tx.push (txSlots_le h.legal) hpush)) hc k
  · exact nextEmit_inv (h.record _) hc k
  · exact (h.record _).endResponse

/-! ### The turns and the step -/

theorem engineTurn_inv (h : s.Inv) (ht : engineTurn s = .next t) : t.Inv := by
  cases hp : s.phase with
  | run =>
    rw [engineTurn_run hp] at ht
    exact engineByte_inv h hp ht
  | emit k =>
    rw [engineTurn_emit hp] at ht
    cases ht
    exact engineEmit_inv h hp

theorem linkPush_inv (h : s.Inv) (b : Byte) : (linkPush b s).Inv := by
  rcases linkPush_cases b s with ⟨rx, hpush, e⟩ | ⟨-, e⟩ <;> rw [e]
  · exact (h.setRx (h.rx.push (rxSlots_le h.legal) hpush)).setReply _
  · exact (h.record _).setReply _

theorem linkPop_inv (h : s.Inv) : (linkPop s).Inv := by
  rcases linkPop_cases s with ⟨b, tx, hpop, e⟩ | ⟨-, e⟩ <;> rw [e]
  · exact ((h.setTx (h.tx.pop (txSlots_le h.legal) hpop)).record _).setReply _
  · exact h.setReply _

/-- A block reset needs of the state before it no more than legal parameters (R181). -/
theorem blockReset_inv (hl : s.cfg.Legal) : (blockReset s).Inv := by
  obtain ⟨hcfg, hidle, hphase, hhead, hrxs, hrxh, hrxt, htxs, htxh, htxt, -⟩ := blockReset_fields s
  refine ⟨?_, ?_, ⟨?_, ?_, ?_⟩, ⟨?_, ?_, ?_⟩, sequenced_of_idle hphase hidle⟩ <;> rw [hcfg]
  · exact hl
  · exact hhead
  · exact hrxs
  · rw [hrxh]; exact rxSlots_pos hl
  · rw [hrxt]; exact rxSlots_pos hl
  · exact htxs
  · rw [htxh]; exact txSlots_pos hl
  · rw [htxt]; exact txSlots_pos hl

theorem takeTurn_inv {turn : Turn} (h : s.Inv) (ht : takeTurn turn s = .next t) : t.Inv := by
  cases turn with
  | linkPush b => cases ht; exact linkPush_inv h b
  | linkPop => cases ht; exact linkPop_inv h
  | engine => exact engineTurn_inv h ht
  | blockReset => cases ht; exact blockReset_inv h.legal

theorem nextTurn_inv {u : State} {turn : Option Turn} (h : s.Inv) (hn : s.nextTurn = (turn, u)) : u.Inv := by
  rw [nextTurn_state hn]
  exact h.setTurns _

theorem step_inv (h : s.Inv) (ht : step s = .next t) : t.Inv := by
  rcases step_cases ht with ⟨u, hn, rfl⟩ | ⟨turn, u, hn, hturn⟩
  · exact nextTurn_inv h hn
  · exact takeTurn_inv (nextTurn_inv h hn) hturn

/-- Settles O46: taking a turn from the schedule keeps the invariant, and so does each of the four turns. -/
theorem stepKeepsInvariant : Obligations.StepKeepsInvariant :=
  fun _ _ h ht => step_inv h ht

theorem resetWith_inv {c : Config} (h : c.Legal) : (State.resetWith c).Inv where
  legal := h
  headroom := List.length_replicate
  rx := Channel.wf_of_zero List.length_replicate (rxSlots_pos h)
  tx := Channel.wf_of_zero List.length_replicate (txSlots_pos h)
  sequenced := sequenced_of_idle rfl ⟨rfl, rfl⟩

/-- Settles O45: reset leaves empty channels of the parameters' sizes and the cursor IDLE in RUN. -/
theorem resetMeetsInvariant : Obligations.ResetMeetsInvariant :=
  ⟨resetWith_inv (by decide), fun _ h => resetWith_inv h⟩

end Sys2Proof.Machine
end

section
/-! SUPPORT. Bytes that nothing has written (10_state.md R20, 40_byte_channel.md R91, 70_reset_and_hazards.md R181):
states that differ in nothing else (`State.Alike`) take the same turns, and stay so through each operation. -/

namespace Sys2Proof.Machine

variable {s r : State} {b : Byte}

/-! ### Channels -/

/-- Two channels of n slots with the same indices, holding the same bytes. -/
structure Channel.Alike (n : Nat) (c d : Channel) : Prop where
  head     : d.head = c.head
  tail     : d.tail = c.tail
  contents : d.contents n = c.contents n

theorem Channel.Alike.refl (n : Nat) (c : Channel) : Channel.Alike n c c := ⟨rfl, rfl, rfl⟩

section
variable {n : Nat} {c d : Channel}

theorem Channel.Alike.push (h : Channel.Alike n c d) (hc : c.Wf n) (hd : d.Wf n) (hn : n ≤ 256) (b : Byte) :
    (c.push n b = none ∧ d.push n b = none) ∨
      ∃ c' d', c.push n b = some c' ∧ d.push n b = some d' ∧ Channel.Alike n c' d' := by
  by_cases hfull : (c.head.toNat + 1) % n = c.tail.toNat
  · exact .inl ⟨push_full hfull, push_full (by rw [h.head, h.tail, hfull])⟩
  · have hpc := push_room (b := b) hfull
    have hpd : d.push n b = _ := push_room (by rw [h.head, h.tail]; exact hfull)
    refine .inr ⟨_, _, hpc, hpd, by rw [h.head], h.tail, ?_⟩
    rw [Channel.contents_push hc hn hpc, Channel.contents_push hd hn hpd, h.contents]

theorem Channel.Alike.pop (h : Channel.Alike n c d) (hc : c.Wf n) (hd : d.Wf n) (hn : n ≤ 256) :
    (c.pop n = none ∧ d.pop n = none) ∨
      ∃ b c' d', c.pop n = some (b, c') ∧ d.pop n = some (b, d') ∧ Channel.Alike n c' d' := by
  by_cases hempty : c.head = c.tail
  · exact .inl ⟨pop_empty hempty, pop_empty (by rw [h.head, h.tail, hempty])⟩
  · have hpc := pop_byte (n := n) hempty
    have hpd : d.pop n = _ := pop_byte (by rw [h.head, h.tail]; exact hempty)
    have hheld := h.contents
    rw [Channel.contents_pop hc hn hpc, Channel.contents_pop hd hn hpd] at hheld
    obtain ⟨hbyte, hrest⟩ := List.cons.inj hheld
    rw [hbyte] at hpd
    exact .inr ⟨_, _, _, hpc, hpd, h.head, by rw [h.tail], hrest⟩

end

/-! ### The operations -/

theorem State.Alike.rx_alike (h : s.Alike r) : Channel.Alike s.cfg.rxSlots s.rx r.rx :=
  ⟨h.rxHead, h.rxTail, h.rx⟩

theorem State.Alike.tx_alike (h : s.Alike r) : Channel.Alike s.cfg.txSlots s.tx r.tx :=
  ⟨h.txHead, h.txTail, h.tx⟩

/-- With the cursor COMPLETE the buffer holds no byte that nothing has written. -/
theorem State.Alike.buf_eq (h : s.Alike r) (hidx : s.idx = 18#8) : r.buf = s.buf := by
  refine Vector.ext fun i hi => h.buf ⟨i, hi⟩ ?_
  rw [hidx]
  exact hi

theorem State.Alike.setBuf (h : s.Alike r) (f : Frame) : (s.setBuf f).Alike (r.setBuf f) :=
  { h with buf := fun _ _ => rfl }

theorem State.Alike.setHeadroom (h : s.Alike r) (l l' : List Byte) :
    (s.setHeadroom l).Alike (r.setHeadroom l') :=
  { h with }

theorem State.Alike.setPhase (h : s.Alike r) (p : Phase) : (s.setPhase p).Alike (r.setPhase p) :=
  { h with phase := rfl }

theorem State.Alike.setRx (h : s.Alike r) {c d : Channel} (hc : Channel.Alike s.cfg.rxSlots c d) :
    (s.setRx c).Alike (r.setRx d) :=
  { h with rxHead := hc.head, rxTail := hc.tail, rx := hc.contents }

theorem State.Alike.setTx (h : s.Alike r) {c d : Channel} (hc : Channel.Alike s.cfg.txSlots c d) :
    (s.setTx c).Alike (r.setTx d) :=
  { h with txHead := hc.head, txTail := hc.tail, tx := hc.contents }

theorem State.Alike.record (h : s.Alike r) (e : Event) : (s.record e).Alike (r.record e) :=
  { h with trace := congrArg (· ++ [e]) h.trace }

theorem State.Alike.setReply (h : s.Alike r) (a : LinkReply) : (s.setReply a).Alike (r.setReply a) :=
  { h with linkReply := rfl }

theorem State.Alike.setTurns (h : s.Alike r) (ts : List Turn) : (s.setTurns ts).Alike (r.setTurns ts) :=
  { h with turns := rfl }

theorem State.Alike.draw (h : s.Alike r) : s.draw.Alike r.draw :=
  { h with draws := congrArg (· + 1) h.draws }

theorem State.Alike.call (h : s.Alike r) (m : MemCall) : (s.call m).Alike (r.call m) :=
  { h with memCalls := congrArg (· ++ [m]) h.memCalls }

/-- In IDLE no byte of the buffer counts as written. -/
theorem State.Alike.toIdle (h : s.Alike r) : s.toIdle.Alike r.toIdle :=
  { h with started := rfl, idx := rfl, buf := fun i hi => absurd hi (Nat.not_lt_zero i.val) }

theorem State.Alike.drop (h : s.Alike r) (cls : DropClass) : (s.drop cls).Alike (r.drop cls) :=
  (h.record _).toIdle

theorem State.Alike.endResponse (h : s.Alike r) : s.endResponse.Alike r.endResponse :=
  h.toIdle.setPhase _

/-- The store of byte i with the cursor moved behind it, when the bytes before i agree. -/
theorem State.Alike.store (h : s.Alike r) {i : Nat} (hi : i < 18) (v : Bool) {j : BitVec 8}
    (hj : j.toNat = i + 1) (hbuf : ∀ k : Fin 18, k.val < i → r.buf[k] = s.buf[k]) :
    ((s.setBuf (s.buf.set i b)).setCursor v j).Alike ((r.setBuf (r.buf.set i b)).setCursor v j) := by
  refine { h with started := rfl, idx := rfl, buf := fun k hk => ?_ }
  rw [State.setCursor_idx, hj] at hk
  show (r.buf.set i b)[k.val] = (s.buf.set i b)[k.val]
  by_cases hki : i = k.val
  · subst hki
    simp only [Vector.getElem_set_self]
  · rw [Vector.getElem_set_ne _ _ hki, Vector.getElem_set_ne _ _ hki]
    exact hbuf k (by omega)

/-! ### The dispatcher -/

theorem State.Alike.respond (h : s.Alike r) (hbuf : r.buf = s.buf) (ok : Bool) :
    (s.respond ok).Alike (r.respond ok) := by
  unfold State.respond
  rw [h.cfg, hbuf]
  exact ((h.setBuf _).record _).setPhase _

theorem State.Alike.readDone (h : s.Alike r) (hbuf : r.buf = s.buf) (zone : Byte) (addr : Word) (n : Half)
    (answer : MemAnswer) : (s.readDone zone addr n answer).Alike (r.readDone zone addr n answer) := by
  cases answer with
  | ok bytes =>
    unfold State.readDone
    rw [hbuf]
    exact ((h.record _).setBuf _).respond rfl true
  | err => exact (h.record _).respond hbuf false

/-- Both outcomes are next states, and the two states are alike. -/
def NextAlike (o o' : Host.Outcome State Fault Refusal) : Prop :=
  ∃ t u, o = .next t ∧ o' = .next u ∧ t.Alike u

theorem State.Alike.next (h : s.Alike r) : NextAlike (.next s) (.next r) := ⟨s, r, rfl, rfl, h⟩

/-- The backend's answer is drawn by the counter and the call alone (R132). -/
theorem execReadMem_alike (h : s.Alike r) (hbuf : r.buf = s.buf) (f : Fields) :
    NextAlike (execReadMem f s) (execReadMem f r) := by
  unfold execReadMem State.memRead
  rw [h.draws]
  exact (((h.call _).draw).readDone hbuf _ _ _ _).next

theorem exec_alike (h : s.Alike r) (hbuf : r.buf = s.buf) (i : Instr) : NextAlike (exec i s) (exec i r) := by
  cases i with
  | ping f => exact (h.respond hbuf true).next
  | readMem f => exact execReadMem_alike h hbuf f
  | writeMem f => exact (h.respond hbuf false).next
  | readReg f => exact (h.respond hbuf false).next
  | writeReg f => exact (h.respond hbuf false).next
  | reset f => exact (h.respond hbuf false).next

/-- A frame is judged and answered by its bytes, the parameters and the free value alone (R114). -/
theorem complete_alike (h : s.Alike r) (hidx : s.idx = 18#8) : NextAlike (complete s) (complete r) := by
  have hbuf := h.buf_eq hidx
  unfold complete dispatch
  rw [h.cfg, hbuf]
  cases validate s.cfg s.buf with
  | invalid cls => exact (h.drop cls).next
  | valid =>
    cases instrOf s.cfg.cmdCode s.buf with
    | some i => exact exec_alike h hbuf i
    | none => exact (h.respond hbuf false).next

/-! ### The parser -/

theorem parseIdle_alike (h : s.Alike r) (b : Byte) : (parseIdle b s).Alike (parseIdle b r) := by
  by_cases hb : b = s.cfg.startMarker
  · rw [parseIdle_marker hb, parseIdle_marker (by rw [h.cfg, hb])]
    exact h.store (by decide) true rfl fun k hk => absurd hk (Nat.not_lt_zero _)
  · rw [parseIdle_other hb, parseIdle_other (by rw [h.cfg]; exact hb)]
    exact h.record _

theorem appendByte_alike (h : s.Alike r) (hi : s.idx.toNat < 18) (b : Byte) :
    (appendByte b s).Alike (appendByte b r) := by
  have hri : r.idx.toNat < 18 := by rw [h.idx]; exact hi
  rw [appendByte_of_lt b hi, appendByte_of_lt b hri]
  simp only [h.idx, h.started]
  exact h.store hi s.started (idx_succ_toNat hi) h.buf

theorem parseCollect_alike (h : s.Alike r) (hi : s.idx.toNat < 18) (b : Byte) :
    NextAlike (parseCollect b s) (parseCollect b r) := by
  have happ := appendByte_alike h hi b
  unfold parseCollect
  rw [h.cfg, h.idx, happ.idx]
  split
  · exact (h.drop .overflow).next
  · split
    next hfull => exact complete_alike happ (BitVec.eq_of_toNat_eq hfull)
    next => exact happ.next

theorem parseByte_alike (h : s.Alike r) (hi : s.idx.toNat < 18) (b : Byte) :
    NextAlike (parseByte b s) (parseByte b r) := by
  unfold parseByte
  rw [h.started]
  split
  · exact parseCollect_alike h hi b
  · exact (parseIdle_alike h b).next

theorem engineByte_alike (h : s.Alike r) (hs : s.Inv) (hr : r.Inv) (hp : s.phase = .run) :
    NextAlike (engineByte s) (engineByte r) := by
  have hrx := hr.rx
  unfold engineByte
  rw [h.cfg] at hrx ⊢
  rcases h.rx_alike.pop hs.rx hrx (rxSlots_le hs.legal) with ⟨es, er⟩ | ⟨b, c, d, es, er, hcd⟩ <;> rw [es, er]
  · exact h.next
  · exact parseByte_alike (h.setRx hcd) (hs.idx_lt hp) b

/-! ### The emitter -/

theorem nextEmit_alike (h : s.Alike r) (k : Fin 18) : (nextEmit k s).Alike (nextEmit k r) := by
  rw [nextEmit_eq, nextEmit_eq]
  split
  · exact h.endResponse
  · exact h.setPhase _

theorem engineEmit_alike (h : s.Alike r) (hs : s.Inv) (hr : r.Inv) {k : Fin 18} (hp : s.phase = .emit k) :
    (engineEmit k s).Alike (engineEmit k r) := by
  obtain ⟨-, hidx⟩ := hs.complete hp
  have htx := hr.tx
  unfold engineEmit
  rw [h.cfg, h.buf_eq hidx]
  rw [h.cfg] at htx
  rcases h.tx_alike.push hs.tx htx (txSlots_le hs.legal) s.buf[k] with ⟨es, er⟩ | ⟨c, d, es, er, hcd⟩ <;>
    rw [es, er]
  · cases s.cfg.txFullPolicy with
    | dropContinue => exact nextEmit_alike (h.record _) k
    | abortRest => exact (h.record _).endResponse
  · exact nextEmit_alike (h.setTx hcd) k

/-! ### The turns and the step -/

theorem engineTurn_alike (h : s.Alike r) (hs : s.Inv) (hr : r.Inv) :
    NextAlike (engineTurn s) (engineTurn r) := by
  cases hp : s.phase with
  | run =>
    rw [engineTurn_run hp, engineTurn_run (h.phase.trans hp)]
    exact engineByte_alike h hs hr hp
  | emit k =>
    rw [engineTurn_emit hp, engineTurn_emit (h.phase.trans hp)]
    exact (engineEmit_alike h hs hr hp).next

theorem linkPush_alike (h : s.Alike r) (hs : s.Inv) (hr : r.Inv) (b : Byte) :
    (linkPush b s).Alike (linkPush b r) := by
  have hrx := hr.rx
  unfold linkPush
  rw [h.cfg] at hrx ⊢
  rcases h.rx_alike.push hs.rx hrx (rxSlots_le hs.legal) b with ⟨es, er⟩ | ⟨c, d, es, er, hcd⟩ <;> rw [es, er]
  · exact (h.record _).setReply _
  · exact (h.setRx hcd).setReply _

theorem linkPop_alike (h : s.Alike r) (hs : s.Inv) (hr : r.Inv) : (linkPop s).Alike (linkPop r) := by
  have htx := hr.tx
  unfold linkPop
  rw [h.cfg] at htx ⊢
  rcases h.tx_alike.pop hs.tx htx (txSlots_le hs.legal) with ⟨es, er⟩ | ⟨b, c, d, es, er, hcd⟩ <;> rw [es, er]
  · exact h.setReply _
  · exact ((h.setTx hcd).record _).setReply _

/-- The free values a block reset leaves are drawn by the counter and the sizes alone. -/
theorem blockReset_alike (h : s.Alike r) : (blockReset s).Alike (blockReset r) := by
  unfold blockReset
  rw [h.cfg, h.draws]
  have hcontents := (h.setBuf (Vector.ofFn fun i : Fin 18 => Config.unspecifiedByte s.draws i.val)).setHeadroom
    (unspecifiedBytes s.draws 18 (s.cfg.bufSize - 18)) (unspecifiedBytes s.draws 18 (s.cfg.bufSize - 18))
  exact (((hcontents.setRx (.refl _ _)).setTx (.refl _ _)).toIdle.setPhase .run).draw

theorem takeTurn_alike (h : s.Alike r) (hs : s.Inv) (hr : r.Inv) (turn : Turn) :
    NextAlike (takeTurn turn s) (takeTurn turn r) := by
  cases turn with
  | linkPush b => exact (linkPush_alike h hs hr b).next
  | linkPop => exact (linkPop_alike h hs hr).next
  | engine => exact engineTurn_alike h hs hr
  | blockReset => exact (blockReset_alike h).next

theorem fairTurn_of_alike (h : s.Alike r) : r.fairTurn = s.fairTurn := by
  have hengine : r.engineEnabled = s.engineEnabled := by
    simp only [State.engineEnabled, Channel.isEmpty, h.phase, h.rxHead, h.rxTail]
  have hready : r.txReady = s.txReady := by
    simp only [State.txReady, Channel.isEmpty, h.txHead, h.txTail]
  simp only [State.fairTurn, hengine, hready]

theorem nextTurn_alike {u : State} {turn : Option Turn} (h : s.Alike r) (hn : s.nextTurn = (turn, u)) :
    ∃ v, r.nextTurn = (turn, v) ∧ u.Alike v := by
  unfold State.nextTurn at hn ⊢
  rw [h.turns]
  cases hts : s.turns with
  | nil =>
    rw [hts] at hn
    cases hn
    exact ⟨r, by rw [fairTurn_of_alike h], h⟩
  | cons t rest =>
    rw [hts] at hn
    cases hn
    exact ⟨r.setTurns rest, rfl, h.setTurns rest⟩

theorem step_alike (h : s.Alike r) (hs : s.Inv) (hr : r.Inv) : NextAlike (step s) (step r) := by
  rcases hn : s.nextTurn with ⟨_ | turn, u⟩ <;> obtain ⟨v, hv, huv⟩ := nextTurn_alike h hn
  · rw [step_of_waiting hn, step_of_waiting hv]
    exact huv.next
  · rw [step_of_turn hn, step_of_turn hv]
    exact takeTurn_alike huv (nextTurn_inv hs hn) (nextTurn_inv hr hv) turn

/-- Settles O48: alike states choose the same turn, and each turn leaves alike states alike. -/
theorem unwrittenBytesAreUnobservable : Obligations.UnwrittenBytesAreUnobservable := by
  intro s r t hs hr h ht
  obtain ⟨t', u, hst, hru, htu⟩ := step_alike h hs hr
  cases ht.symm.trans hst
  exact ⟨u, hru, htu⟩

end Sys2Proof.Machine
end

section
/-! SUPPORT. Who owns which index (10_state.md R25, R26, 40_byte_channel.md R93, R94): what a turn of the link and a
turn of the engine leave alone. -/

namespace Sys2Proof.Machine

variable {s t : State}

/-! ### What the two agents leave alone -/

/-- The link's turn leaves alone the engine's index of each channel, the TX slots, and the engine itself. -/
structure State.LinkKeeps (s t : State) : Prop where
  rxTail   : t.rx.tail = s.rx.tail
  txHead   : t.tx.head = s.tx.head
  txSlots  : t.tx.slots = s.tx.slots
  buf      : t.buf = s.buf
  headroom : t.headroom = s.headroom
  started  : t.started = s.started
  idx      : t.idx = s.idx
  phase    : t.phase = s.phase
  memCalls : t.memCalls = s.memCalls

/-- The engine's turn leaves alone the link's index of each channel, the RX slots, and what the ports answered
the link. -/
structure State.EngineKeeps (s t : State) : Prop where
  rxHead    : t.rx.head = s.rx.head
  rxSlots   : t.rx.slots = s.rx.slots
  txTail    : t.tx.tail = s.tx.tail
  linkReply : t.linkReply = s.linkReply

/-- Neither channel and no reply to the link is touched. -/
structure State.KeepsPorts (s t : State) : Prop where
  rx        : t.rx = s.rx
  tx        : t.tx = s.tx
  linkReply : t.linkReply = s.linkReply

/-! ### The link -/

theorem linkPush_keeps (b : Byte) (s : State) : s.LinkKeeps (linkPush b s) := by
  rcases linkPush_cases b s with ⟨rx, hpush, e⟩ | ⟨-, e⟩ <;> rw [e]
  · obtain ⟨-, rfl⟩ := push_eq_some hpush
    exact ⟨rfl, rfl, rfl, rfl, rfl, rfl, rfl, rfl, rfl⟩
  · exact ⟨rfl, rfl, rfl, rfl, rfl, rfl, rfl, rfl, rfl⟩

theorem linkPop_keeps (s : State) : s.LinkKeeps (linkPop s) := by
  rcases linkPop_cases s with ⟨b, tx, hpop, e⟩ | ⟨-, e⟩ <;> rw [e]
  · obtain ⟨-, -, rfl⟩ := pop_eq_some hpop
    exact ⟨rfl, rfl, rfl, rfl, rfl, rfl, rfl, rfl, rfl⟩
  · exact ⟨rfl, rfl, rfl, rfl, rfl, rfl, rfl, rfl, rfl⟩

theorem takeTurn_link_keeps {turn : Turn} (hlink : turn.isLink = true) (h : takeTurn turn s = .next t) :
    s.LinkKeeps t := by
  cases turn with
  | linkPush b => cases h; exact linkPush_keeps b s
  | linkPop => cases h; exact linkPop_keeps s
  | engine => cases hlink
  | blockReset => cases hlink

/-! ### The engine -/

theorem parseIdle_keepsPorts (b : Byte) (s : State) : s.KeepsPorts (parseIdle b s) := by
  by_cases hb : b = s.cfg.startMarker
  · rw [parseIdle_marker hb]
    exact ⟨rfl, rfl, rfl⟩
  · rw [parseIdle_other hb]
    exact ⟨rfl, rfl, rfl⟩

theorem appendByte_keepsPorts (b : Byte) (s : State) : s.KeepsPorts (appendByte b s) := by
  unfold appendByte
  rw [storeByte_rest]
  exact ⟨rfl, rfl, rfl⟩

theorem complete_keepsPorts (h : complete s = .next t) : s.KeepsPorts t := by
  obtain ⟨⟨-, -, hrx, htx, hreply, -⟩, -⟩ := complete_frame h
  exact ⟨hrx, htx, hreply⟩

theorem nextEmit_keepsPorts (k : Fin 18) (s : State) : s.KeepsPorts (nextEmit k s) := by
  rw [nextEmit_eq]
  split <;> exact ⟨rfl, rfl, rfl⟩

/-- Of the two channels a pop from RX moves rx_tail alone. -/
theorem engineKeeps_of_pop {b : Byte} {rx : Channel} (hpop : s.rx.pop s.cfg.rxSlots = some (b, rx))
    (h : (s.setRx rx).KeepsPorts t) : s.EngineKeeps t := by
  obtain ⟨-, -, rfl⟩ := pop_eq_some hpop
  obtain ⟨hrx, htx, hreply⟩ := h
  exact ⟨by rw [hrx, State.setRx_rx], by rw [hrx, State.setRx_rx], by rw [htx, State.setRx_tx], hreply⟩

/-- Of the two channels a push to TX moves tx_head and writes a TX slot alone. -/
theorem engineKeeps_of_push {b : Byte} {tx : Channel} (hpush : s.tx.push s.cfg.txSlots b = some tx)
    (h : (s.setTx tx).KeepsPorts t) : s.EngineKeeps t := by
  obtain ⟨-, rfl⟩ := push_eq_some hpush
  obtain ⟨hrx, htx, hreply⟩ := h
  exact ⟨by rw [hrx, State.setTx_rx], by rw [hrx, State.setTx_rx], by rw [htx, State.setTx_tx], hreply⟩

theorem engineKeeps_of_keepsPorts (h : s.KeepsPorts t) : s.EngineKeeps t :=
  ⟨by rw [h.rx], by rw [h.rx], by rw [h.tx], h.linkReply⟩

theorem engineByte_keeps (h : engineByte s = .next t) : s.EngineKeeps t := by
  rcases engineByte_cases s with
    ⟨-, e⟩ | ⟨b, rx, hpop, ⟨-, e⟩ | ⟨-, -, e⟩ | ⟨-, -, -, e⟩ | ⟨-, -, -, e⟩⟩ <;> rw [e] at h
  · cases h
    exact ⟨rfl, rfl, rfl, rfl⟩
  · cases h
    exact engineKeeps_of_pop hpop (parseIdle_keepsPorts b _)
  · cases h
    exact engineKeeps_of_pop hpop ⟨rfl, rfl, rfl⟩
  · cases h
    exact engineKeeps_of_pop hpop (appendByte_keepsPorts b _)
  · obtain ⟨hrx, htx, hreply⟩ := complete_keepsPorts h
    exact engineKeeps_of_pop hpop ⟨hrx, htx, hreply⟩

theorem engineEmit_keeps (k : Fin 18) (s : State) : s.EngineKeeps (engineEmit k s) := by
  rcases engineEmit_cases k s with ⟨tx, hpush, e⟩ | ⟨-, -, e⟩ | ⟨-, -, e⟩ <;> rw [e]
  · exact engineKeeps_of_push hpush (nextEmit_keepsPorts k _)
  · obtain ⟨hrx, htx, hreply⟩ := nextEmit_keepsPorts k (s.record (.txOverflow k s.buf[k]))
    exact engineKeeps_of_keepsPorts ⟨hrx, htx, hreply⟩
  · exact ⟨rfl, rfl, rfl, rfl⟩

theorem engineTurn_keeps (h : engineTurn s = .next t) : s.EngineKeeps t := by
  cases hp : s.phase with
  | run =>
    rw [engineTurn_run hp] at h
    exact engineByte_keeps h
  | emit k =>
    rw [engineTurn_emit hp] at h
    cases h
    exact engineEmit_keeps k s

/-- Settles O40: the taking of the turn from the schedule touches nothing else, and each agent's turn keeps what
the other owns. -/
theorem eachAgentKeepsToItsOwnIndices : Obligations.EachAgentKeepsToItsOwnIndices := by
  intro s u t turn hn ht
  rw [step_of_turn hn] at ht
  rw [nextTurn_state hn] at ht
  refine ⟨fun hlink => ?_, ?_⟩
  · obtain ⟨hrx, hhead, hslots, hbuf, hroom, hstarted, hidx, hphase, hcalls⟩ := takeTurn_link_keeps hlink ht
    exact ⟨hrx, hhead, hslots, hbuf, hroom, hstarted, hidx, hphase, hcalls⟩
  · rintro rfl
    obtain ⟨hhead, hslots, htail, hreply⟩ := engineTurn_keeps ht
    exact ⟨hhead, hslots, htail, hreply⟩

end Sys2Proof.Machine
end

section
/-! SUPPORT. The Memory Access port (20_memory.md R51 to R53, R57): what each turn adds to the record of calls. Only
the judging of a complete frame calls the port, and only for READ_MEM. -/

namespace Sys2Proof.Machine

variable {s t : State}

/-! ### The parser -/

@[simp] theorem parseIdle_memCalls (b : Byte) (s : State) : (parseIdle b s).memCalls = s.memCalls := by
  by_cases h : b = s.cfg.startMarker
  · simp [parseIdle_marker h]
  · simp [parseIdle_other h]

@[simp] theorem appendByte_memCalls (b : Byte) (s : State) : (appendByte b s).memCalls = s.memCalls := by
  unfold appendByte
  rw [storeByte_rest]
  rfl

/-- Judging a frame makes one MemRead, of the frame's own operands, or no call (R132). -/
theorem complete_memCalls (h : complete s = .next t) :
    t.memCalls = s.memCalls ∨ ∃ f, decodeFrame s.cfg s.buf = .instr (.readMem f) ∧
      t.memCalls = s.memCalls ++ [.read f.zone f.addr f.len] := by
  obtain ⟨-, ⟨cls, -, rfl⟩ | ⟨-, -, -, -, -, -, -, -, ⟨hcalls, -⟩ | ⟨f, -, hdec, hcalls, -⟩⟩⟩ := complete_frame h
  · exact .inl rfl
  · exact .inl hcalls
  · exact .inr ⟨f, hdec, hcalls⟩

/-- A byte calls the port when it is the 18th of a READ_MEM frame, and never otherwise. -/
theorem engineByte_memCalls (h : engineByte s = .next t) :
    t.memCalls = s.memCalls ∨
      ∃ b rx f, (s.started = true ∧ s.idx = 17#8 ∧ 18 ≤ s.cfg.bufSize ∧
          s.rx.pop s.cfg.rxSlots = some (b, rx)) ∧
        decodeFrame s.cfg (s.buf.set 17 b) = .instr (.readMem f) ∧
        t.memCalls = s.memCalls ++ [.read f.zone f.addr f.len] := by
  rcases engineByte_cases s with
    ⟨-, e⟩ | ⟨b, rx, hpop, ⟨-, e⟩ | ⟨-, -, e⟩ | ⟨-, -, -, e⟩ | ⟨hs, hbuf, hi, e⟩⟩ <;> rw [e] at h
  case inr.inr.inr.inr =>
    obtain hcalls | ⟨f, hdec, hcalls⟩ := complete_memCalls h
    · exact .inl hcalls
    · exact .inr ⟨b, rx, f, ⟨hs, hi, hbuf, hpop⟩, hdec, hcalls⟩
  · cases h; exact .inl rfl
  · cases h; exact .inl (parseIdle_memCalls b _)
  · cases h; exact .inl rfl
  · cases h; exact .inl (appendByte_memCalls b _)

/-! ### The emitter and the turns -/

@[simp] theorem nextEmit_memCalls (k : Fin 18) (s : State) : (nextEmit k s).memCalls = s.memCalls := by
  rw [nextEmit_eq]
  split <;> rfl

@[simp] theorem engineEmit_memCalls (k : Fin 18) (s : State) : (engineEmit k s).memCalls = s.memCalls := by
  rcases engineEmit_cases k s with ⟨tx, -, e⟩ | ⟨-, -, e⟩ | ⟨-, -, e⟩ <;> rw [e]
  · exact nextEmit_memCalls k _
  · exact nextEmit_memCalls k _
  · rfl

@[simp] theorem blockReset_memCalls (s : State) : (blockReset s).memCalls = s.memCalls := by
  obtain ⟨-, -, -, -, -, -, -, -, -, -, -, -, -, hcalls⟩ := blockReset_fields s
  exact hcalls

/-- Of the four turns only the engine's, with a byte to take, can call the port. -/
theorem takeTurn_memCalls {turn : Turn} (h : takeTurn turn s = .next t) :
    t.memCalls = s.memCalls ∨ (turn = .engine ∧ s.phase = .run ∧ engineByte s = .next t) := by
  cases turn with
  | linkPush b => cases h; exact .inl (linkPush_keeps b s).memCalls
  | linkPop => cases h; exact .inl (linkPop_keeps s).memCalls
  | blockReset => cases h; exact .inl (blockReset_memCalls s)
  | engine =>
    have h : engineTurn s = .next t := h
    cases hp : s.phase with
    | run => exact .inr ⟨rfl, rfl, (engineTurn_run hp).symm.trans h⟩
    | emit k =>
      rw [engineTurn_emit hp] at h
      cases h
      exact .inl (engineEmit_memCalls k s)

/-! ### The step -/

theorem nextTurn_memCalls {u : State} {turn : Option Turn} (h : s.nextTurn = (turn, u)) :
    u.memCalls = s.memCalls := by
  rw [nextTurn_state h]
  rfl

/-- Settles O32: a step that calls the port is the engine's turn on the 18th byte of a frame that decodes to
READ_MEM. -/
theorem onlyReadMemReads : Obligations.OnlyReadMemReads := by
  intro s t h
  obtain ⟨u, hn, rfl⟩ | ⟨turn, u, hn, hturn⟩ := step_cases h <;> rw [← nextTurn_memCalls hn]
  · exact .inl rfl
  · obtain hcalls | ⟨rfl, hp, hbyte⟩ := takeTurn_memCalls hturn
    · exact .inl hcalls
    · obtain hcalls | ⟨b, rx, f, ⟨hs, hi, hbuf, hpop⟩, hdec, hcalls⟩ := engineByte_memCalls hbyte
      · exact .inl hcalls
      · exact .inr ⟨u, b, rx, f, ⟨hn, hp, hs, hi, hbuf, hpop⟩, (decode_toList _ _).trans hdec, hcalls⟩

/-- Settles O33: the one call a step can add to the record is a MemRead. -/
theorem noStepWritesTargetMemory : Obligations.NoStepWritesTargetMemory := by
  intro s t h
  obtain hcalls | ⟨-, -, -, f, -, -, hcalls⟩ := onlyReadMemReads s t h <;> rw [hcalls]
  rw [List.filter_append, List.filter_cons_of_neg (by simp [MemCall.isWrite]), List.filter_nil, List.append_nil]

end Sys2Proof.Machine
end

section
/-! SUPPORT. The link agent's two turns as steps of the machine (20_memory.md R58, 40_byte_channel.md R90, R91), and
the independence of its push from the engine's turn (20_memory.md R59). -/

namespace Sys2Proof.Machine

variable {s t : State} {b : Byte}

/-! ### A scheduled turn -/

/-- The turn at the head of the schedule is taken with the rest of the schedule left. -/
theorem step_of_turns {turn : Turn} {rest : List Turn} (h : s.turns = turn :: rest) :
    step s = takeTurn turn (s.setTurns rest) :=
  step_of_turn (by simp only [State.nextTurn, h])

/-! ### The link's turns -/

theorem linkPush_of_push {rx : Channel} (h : s.rx.push s.cfg.rxSlots b = some rx) :
    linkPush b s = (s.setRx rx).setReply .pushOk := by
  simp only [linkPush, h]

theorem linkPush_of_full (h : s.rx.push s.cfg.rxSlots b = none) :
    linkPush b s = (s.record (.rxOverflow b)).setReply .pushFull := by
  simp only [linkPush, h]

theorem linkPop_of_pop {tx : Channel} (h : s.tx.pop s.cfg.txSlots = some (b, tx)) :
    linkPop s = ((s.setTx tx).record (.txByte b)).setReply (.popByte b) := by
  simp only [linkPop, h]

theorem linkPop_of_empty (h : s.tx.pop s.cfg.txSlots = none) : linkPop s = s.setReply .popEmpty := by
  simp only [linkPop, h]

/-- Settles O38: the push finds RX full exactly when the next index after head is tail. -/
theorem linkPushPushesOrRecordsOverflow : Obligations.LinkPushPushesOrRecordsOverflow := by
  intro s b rest hturns
  rw [step_of_turns hturns]
  split
  next hfull => exact congrArg Host.Outcome.next (linkPush_of_full (s := s.setTurns rest) (push_full hfull))
  next hroom => exact congrArg Host.Outcome.next (linkPush_of_push (s := s.setTurns rest) (push_room hroom))

/-- Settles O39: the pop finds TX empty exactly when head is tail. -/
theorem linkPopDeliversOldestByte : Obligations.LinkPopDeliversOldestByte := by
  intro s rest hturns
  rw [step_of_turns hturns]
  split
  next hempty => exact congrArg Host.Outcome.next (linkPop_of_empty (s := s.setTurns rest) (pop_empty hempty))
  next hheld => exact congrArg Host.Outcome.next (linkPop_of_pop (s := s.setTurns rest) (pop_byte hheld))

/-! ### What the link owns, and the engine does not read -/

/-- s with another RX channel, another last reply to the link and another schedule: beyond the byte it pops, the
engine reads and writes none of the three. -/
def State.withLink (s : State) (rx : Channel) (reply : Option LinkReply) (ts : List Turn) : State :=
  { s with rx := rx, linkReply := reply, turns := ts }

section
variable (rx : Channel) (reply : Option LinkReply) (ts : List Turn)

@[simp] theorem State.withLink_cfg : (s.withLink rx reply ts).cfg = s.cfg := rfl
@[simp] theorem State.withLink_phase : (s.withLink rx reply ts).phase = s.phase := rfl
@[simp] theorem State.withLink_buf : (s.withLink rx reply ts).buf = s.buf := rfl
@[simp] theorem State.withLink_started : (s.withLink rx reply ts).started = s.started := rfl
@[simp] theorem State.withLink_idx : (s.withLink rx reply ts).idx = s.idx := rfl
@[simp] theorem State.withLink_tx : (s.withLink rx reply ts).tx = s.tx := rfl
@[simp] theorem State.withLink_rx : (s.withLink rx reply ts).rx = rx := rfl

theorem parseIdle_withLink (b : Byte) (s : State) :
    parseIdle b (s.withLink rx reply ts) = (parseIdle b s).withLink rx reply ts := by
  by_cases h : b = s.cfg.startMarker
  · rw [parseIdle_marker h, parseIdle_marker (s := s.withLink rx reply ts) h]; rfl
  · rw [parseIdle_other h, parseIdle_other (s := s.withLink rx reply ts) h]; rfl

theorem storeByte_withLink (s : State) (i : Nat) (b : Byte) :
    (s.withLink rx reply ts).storeByte i b = (s.storeByte i b).withLink rx reply ts := by
  unfold State.storeByte
  split <;> rfl

theorem appendByte_withLink (b : Byte) (s : State) :
    appendByte b (s.withLink rx reply ts) = (appendByte b s).withLink rx reply ts := by
  unfold appendByte
  rw [storeByte_withLink]
  rfl

theorem readDone_withLink (s : State) (zone : Byte) (addr : Word) (n : Half) (answer : MemAnswer) :
    (s.withLink rx reply ts).readDone zone addr n answer =
      (s.readDone zone addr n answer).withLink rx reply ts := by
  cases answer <;> rfl

theorem nextEmit_withLink (k : Fin 18) (s : State) :
    nextEmit k (s.withLink rx reply ts) = (nextEmit k s).withLink rx reply ts := by
  rw [nextEmit_eq, nextEmit_eq]
  split <;> rfl

theorem engineEmit_withLink (k : Fin 18) (s : State) :
    engineEmit k (s.withLink rx reply ts) = (engineEmit k s).withLink rx reply ts := by
  unfold engineEmit
  simp only [State.withLink_tx, State.withLink_cfg, State.withLink_buf]
  cases s.tx.push s.cfg.txSlots s.buf[k] with
  | some tx => exact nextEmit_withLink rx reply ts k (s.setTx tx)
  | none =>
    cases s.cfg.txFullPolicy with
    | abortRest => rfl
    | dropContinue => exact nextEmit_withLink rx reply ts k (s.record (.txOverflow k s.buf[k]))

end

/-- From s the operation reaches one next state, whatever the link's pieces are, and leaves those alone. -/
def IgnoresLink (op : State → Host.Outcome State Fault Refusal) (s : State) : Prop :=
  ∃ t : State, ∀ rx reply ts, op (s.withLink rx reply ts) = .next (t.withLink rx reply ts)

theorem exec_ignoresLink (i : Instr) (s : State) : IgnoresLink (exec i) s := by
  cases i with
  | ping f => exact ⟨s.respond true, fun _ _ _ => rfl⟩
  | readMem f =>
    refine ⟨(s.call (.read f.zone f.addr f.len)).draw.readDone f.zone f.addr f.len
      (memAnswer s.draws f.zone f.addr f.len), fun rx reply ts => congrArg Host.Outcome.next ?_⟩
    exact readDone_withLink rx reply ts (s.call (.read f.zone f.addr f.len)).draw f.zone f.addr f.len
      (memAnswer s.draws f.zone f.addr f.len)
  | writeMem f => exact ⟨s.respond false, fun _ _ _ => rfl⟩
  | readReg f => exact ⟨s.respond false, fun _ _ _ => rfl⟩
  | writeReg f => exact ⟨s.respond false, fun _ _ _ => rfl⟩
  | reset f => exact ⟨s.respond false, fun _ _ _ => rfl⟩

theorem complete_ignoresLink (s : State) : IgnoresLink complete s := by
  unfold IgnoresLink complete dispatch
  simp only [State.withLink_cfg, State.withLink_buf]
  cases validate s.cfg s.buf with
  | invalid cls => exact ⟨s.drop cls, fun _ _ _ => rfl⟩
  | valid =>
    cases instrOf s.cfg.cmdCode s.buf with
    | some i => exact exec_ignoresLink i s
    | none => exact ⟨s.respond false, fun _ _ _ => rfl⟩

theorem parseCollect_ignoresLink (b : Byte) (s : State) : IgnoresLink (parseCollect b) s := by
  unfold IgnoresLink parseCollect
  simp only [State.withLink_cfg, State.withLink_idx, appendByte_withLink]
  split
  · exact ⟨s.drop .overflow, fun _ _ _ => rfl⟩
  · split
    · exact complete_ignoresLink (appendByte b s)
    · exact ⟨appendByte b s, fun _ _ _ => rfl⟩

theorem parseByte_ignoresLink (b : Byte) (s : State) : IgnoresLink (parseByte b) s := by
  unfold IgnoresLink parseByte
  simp only [State.withLink_started, parseIdle_withLink]
  split
  · exact parseCollect_ignoresLink b s
  · exact ⟨parseIdle b s, fun _ _ _ => rfl⟩

/-! ### A push beside a pop -/

/-- A channel of n slots that holds fewer than n - 1 bytes is not full (R92). -/
theorem Channel.exists_push {n : Nat} {ch : Channel} (h : ch.Wf n) (hn : n ≤ 256)
    (hroom : ch.occupancy n < n - 1) (b : Byte) : ∃ pushed, ch.push n b = some pushed := by
  refine ⟨_, push_room fun hfull => ?_⟩
  rw [← nextIndex_toNat n (Nat.zero_lt_of_lt h.head) hn] at hfull
  have hnext := nextIndex_cases hn h.head
  have hheld := Channel.occupancy_cases h
  have ht := h.tail
  omega

/-- A push that finds room writes no slot a pop reads, and each moves its own index: the order of the two does not
matter. -/
theorem Channel.push_pop_comm {n : Nat} {ch pushed popped : Channel} {b x : Byte} (h : ch.Wf n) (hn : n ≤ 256)
    (hpush : ch.push n b = some pushed) (hpop : ch.pop n = some (x, popped)) :
    ∃ both, pushed.pop n = some (x, both) ∧ popped.push n b = some both := by
  have hpos := Nat.zero_lt_of_lt h.head
  obtain ⟨hroom, rfl⟩ := push_eq_some hpush
  obtain ⟨hheld, rfl, rfl⟩ := pop_eq_some hpop
  have hne : ch.head.toNat ≠ ch.tail.toNat := fun e => hheld (BitVec.eq_of_toNat_eq e)
  have hhead := nextIndex_cases hn h.head
  have htail := nextIndex_cases hn h.tail
  rw [← nextIndex_toNat n hpos hn] at hroom
  refine ⟨_, ?_, push_room ?_⟩
  · rw [pop_byte fun e => hroom (congrArg BitVec.toNat e)]
    simp [List.getD, hne]
  · rw [← nextIndex_toNat n hpos hn]
    have := h.head
    dsimp only
    omega

/-! ### The engine's turn beside a push -/

/-- The engine's turn beside a push of b to RX: from s's RX the engine leaves `popped`, from `filled`, which is s's RX
after the push, it leaves `both`, which is `popped` after the push; all else it does is the same, whatever the link was
answered and whatever is scheduled. -/
structure PushBeside (b : Byte) (s t : State) (filled popped both : Channel) : Prop where
  cfg          : t.cfg = s.cfg
  pushFirst    : s.rx.push s.cfg.rxSlots b = some filled
  pushSecond   : popped.push s.cfg.rxSlots b = some both
  engineFirst  : ∀ reply ts, engineTurn (s.withLink s.rx reply ts) = .next (t.withLink popped reply ts)
  engineSecond : ∀ reply ts, engineTurn (s.withLink filled reply ts) = .next (t.withLink both reply ts)

/-- In RUN what the engine does is settled by the byte it pops. -/
theorem engineTurn_withLink_of_pop (hp : s.phase = .run)
    (ht : ∀ rx reply ts, parseByte b (s.withLink rx reply ts) = .next (t.withLink rx reply ts))
    {rx rx' : Channel} (hpop : rx.pop s.cfg.rxSlots = some (b, rx')) (reply : Option LinkReply) (ts : List Turn) :
    engineTurn (s.withLink rx reply ts) = .next (t.withLink rx' reply ts) := by
  rw [engineTurn_run (s := s.withLink rx reply ts) hp]
  simp only [engineByte, State.withLink_rx, State.withLink_cfg, hpop]
  exact ht rx' reply ts

/-- In RUN the engine pops the same byte before and after the push. -/
theorem pushBeside_run (h : s.Inv) (hp : s.phase = .run) (hheld : s.rx.head ≠ s.rx.tail) {filled : Channel}
    (hpush : s.rx.push s.cfg.rxSlots b = some filled) : ∃ t popped both, PushBeside b s t filled popped both := by
  have hpop := pop_byte (n := s.cfg.rxSlots) hheld
  obtain ⟨both, hpop', hpush'⟩ := Channel.push_pop_comm h.rx (rxSlots_le h.legal) hpush hpop
  obtain ⟨t, ht⟩ := parseByte_ignoresLink (s.rx.slots.getD s.rx.tail.toNat 0#8) s
  have hfirst := engineTurn_withLink_of_pop hp ht hpop
  have hcfg := engineTurn_cfg (hfirst none [])
  exact ⟨t, _, both, hcfg, hpush, hpush', hfirst, engineTurn_withLink_of_pop hp ht hpop'⟩

/-- In EMIT(k) the engine does not touch RX. -/
theorem pushBeside_emit {k : Fin 18} (hp : s.phase = .emit k) {filled : Channel}
    (hpush : s.rx.push s.cfg.rxSlots b = some filled) : PushBeside b s (engineEmit k s) filled s.rx filled := by
  have hengine (rx reply ts) :
      engineTurn (s.withLink rx reply ts) = .next ((engineEmit k s).withLink rx reply ts) := by
    rw [engineTurn_emit (s := s.withLink rx reply ts) hp, engineEmit_withLink]
  exact ⟨engineEmit_cfg k s, hpush, hpush, hengine s.rx, hengine filled⟩

theorem rx_head_ne_tail_of_engineEnabled (hp : s.phase = .run) (h : s.engineEnabled = true) :
    s.rx.head ≠ s.rx.tail := by
  simpa [State.engineEnabled, hp, Channel.isEmpty] using h

theorem pushBeside_of_engineEnabled (h : s.Inv) (hen : s.engineEnabled = true) {filled : Channel}
    (hpush : s.rx.push s.cfg.rxSlots b = some filled) : ∃ t popped both, PushBeside b s t filled popped both := by
  cases hp : s.phase with
  | run => exact pushBeside_run h hp (rx_head_ne_tail_of_engineEnabled hp hen) hpush
  | emit k => exact ⟨_, _, _, pushBeside_emit hp hpush⟩

/-! ### Two steps in either order -/

theorem run_succ {k : Nat} (h : step s = .next t) : core.run (k + 1) s = core.run k t := by
  have h' : core.step s = .next t := h
  simp only [Host.Core.run, h']

theorem run_two {u : State} (hs : step s = .next t) (ht : step t = .next u) : core.run 2 s = .next u := by
  rw [run_succ hs, run_succ ht]
  rfl

theorem step_withLink (s : State) (rx : Channel) (reply : Option LinkReply) (turn : Turn) (rest : List Turn) :
    step (s.withLink rx reply (turn :: rest)) = takeTurn turn (s.withLink rx reply rest) :=
  step_of_turn rfl

theorem step_engine_withLink (s : State) (rx : Channel) (reply : Option LinkReply) (rest : List Turn) :
    step (s.withLink rx reply (.engine :: rest)) = engineTurn (s.withLink rx reply rest) :=
  step_withLink s rx reply .engine rest

theorem step_linkPush_withLink {rx filled : Channel} (h : rx.push s.cfg.rxSlots b = some filled)
    (reply : Option LinkReply) (rest : List Turn) :
    step (s.withLink rx reply (.linkPush b :: rest)) = .next (s.withLink filled (some .pushOk) rest) := by
  rw [step_withLink]
  exact congrArg Host.Outcome.next (linkPush_of_push (s := s.withLink rx reply rest) h)

theorem PushBeside.engine_then_push {filled popped both : Channel} (h : PushBeside b s t filled popped both)
    (rest : List Turn) : core.run 2 (s.setTurns (.engine :: .linkPush b :: rest)) =
      .next (t.withLink both (some .pushOk) rest) :=
  run_two ((step_engine_withLink s s.rx s.linkReply _).trans (h.engineFirst _ _))
    (step_linkPush_withLink (h.cfg ▸ h.pushSecond) _ rest)

theorem PushBeside.push_then_engine {filled popped both : Channel} (h : PushBeside b s t filled popped both)
    (rest : List Turn) : core.run 2 (s.setTurns (.linkPush b :: .engine :: rest)) =
      .next (t.withLink both (some .pushOk) rest) :=
  run_two (step_linkPush_withLink h.pushFirst s.linkReply _)
    ((step_engine_withLink s filled _ rest).trans (h.engineSecond _ _))

/-- Settles O41: in either order the push finds room, the engine pops the same byte or none, and what the engine does
besides ignores the link. -/
theorem engineAndPushCommute : Obligations.EngineAndPushCommute := by
  intro s b rest h hen hroom
  obtain ⟨filled, hpush⟩ := Channel.exists_push h.rx (rxSlots_le h.legal) hroom b
  obtain ⟨t, popped, both, hbeside⟩ := pushBeside_of_engineEnabled h hen hpush
  exact ⟨t.withLink both (some .pushOk) rest, hbeside.engine_then_push rest, hbeside.push_then_engine rest⟩

end Sys2Proof.Machine
end

section
/-! SUPPORT. The encoding (30_encoding.md R70 to R74, R82): what a valid frame is, how a command byte is selected, and
the round trips between the decoder and the encoder. -/

namespace Sys2Proof

open Sys2Proof.Machine

variable {c : Config} {k : CmdCodes} {cmd : Byte} {i : Instr} {f g : Frame}

/-! ### Valid frames -/

/-- The checks of R121 to R123 together. -/
theorem validate_eq_valid_iff :
    validate c f = .valid ↔ regSof f = c.startMarker ∧ regEof f = c.endMarker ∧
      (regLen f).toNat ≤ Config.dataCap ∧ frameCrc f = regCsum f := by
  unfold validate
  split
  case isTrue hmark =>
    refine ⟨nofun, fun ⟨hsof, heof, _⟩ => ?_⟩
    exact hmark.elim (absurd hsof) (absurd heof)
  case isFalse hmark =>
    obtain ⟨hsof, heof⟩ := not_or.mp hmark
    replace hsof := Decidable.of_not_not hsof
    replace heof := Decidable.of_not_not heof
    split
    case isTrue hlen => simp [Nat.not_le.mpr hlen]
    case isFalse hlen => simp [hsof, heof, Nat.not_lt.mp hlen]

/-- Every command byte and every choice of the fields with LEN at most 4 makes a valid frame (R125). -/
theorem validate_frameOf {fs : Fields} (h : fs.wf = true) : validate c (frameOf c cmd fs) = .valid := by
  obtain ⟨hsof, heof, -, hfields, hcsum⟩ := frameOf_registers c cmd fs
  have hlen : regLen (frameOf c cmd fs) = fs.len := congrArg Fields.len hfields
  refine validate_eq_valid_iff.mpr ⟨hsof, heof, ?_, hcsum.symm⟩
  rw [hlen]
  exact of_decide_eq_true h

theorem fieldsOf_wf (h : validate c f = .valid) : (fieldsOf f).wf = true := by
  obtain ⟨-, -, hlen, -⟩ := validate_eq_valid_iff.mp h
  exact decide_eq_true hlen

/-- The write of CSUM covers offsets 15 and 16. -/
theorem writeCsum_congr (v : Half) (h : ∀ j (hj : j < 18), j ≠ 15 → j ≠ 16 → f[j] = g[j]) :
    writeCsum v f = writeCsum v g := by
  apply Vector.ext
  intro j hj
  simp only [writeCsum, Vector.getElem_set]
  split
  · rfl
  · split
    · rfl
    · exact h j hj (by omega) (by omega)

/-- The checksum does not depend on the bytes it is stored in (R73). -/
theorem recomputeChecksum_congr (h : ∀ j (hj : j < 18), j ≠ 15 → j ≠ 16 → f[j] = g[j]) :
    recomputeChecksum f = recomputeChecksum g := by
  have hcrc : frameCrc f = frameCrc g := by simp [frameCrc, spanOf, h]
  unfold recomputeChecksum
  rw [hcrc]
  exact writeCsum_congr _ h

/-- The four DATA registers are the bytes at offsets 11 to 14 (R71). -/
theorem regData_bytes (f : Frame) :
    regData f 0 = f[11] ∧ regData f 1 = f[12] ∧ regData f 2 = f[13] ∧ regData f 3 = f[14] :=
  ⟨rfl, rfl, rfl, rfl⟩

/-- The offsets outside the checksum field, one by one. -/
theorem offset_cases {j : Nat} (hj : j < 18) (h15 : j ≠ 15) (h16 : j ≠ 16) :
    j = 0 ∨ j = 1 ∨ j = 2 ∨ j = 3 ∨ j = 4 ∨ j = 5 ∨ j = 6 ∨ j = 7 ∨ j = 8 ∨ j = 9 ∨ j = 10 ∨ j = 11 ∨ j = 12 ∨
      j = 13 ∨ j = 14 ∨ j = 17 := by
  omega

/-- A valid frame is the frame of its own command byte and fields: no byte of it is lost (R82). -/
theorem frameOf_eq_self (h : validate c f = .valid) : frameOf c (regCmd f) (fieldsOf f) = f := by
  obtain ⟨hsof, heof, -, hcsum⟩ := validate_eq_valid_iff.mp h
  obtain ⟨h5, h6, h7, h8⟩ := byteOf_le32 f[5] f[6] f[7] f[8]
  obtain ⟨h11, h12, h13, h14⟩ := regData_bytes f
  refine (recomputeChecksum_congr fun j hj h15 h16 => ?_).trans (recomputeChecksum_eq_self hcsum)
  obtain rfl | rfl | rfl | rfl | rfl | rfl | rfl | rfl | rfl | rfl | rfl | rfl | rfl | rfl | rfl | rfl :=
      offset_cases hj h15 h16 <;>
    simp [← hsof, ← heof, fieldsOf, regSof, regEof, regCmd, regFlags, regSeq, regZone, regAddr, regLen, h5, h6,
      h7, h8, lo8_le16, hi8_le16, h11, h12, h13, h14]

/-! ### Selection -/

/-- The arm `otherwise` takes exactly the command bytes that are none of the six (R130, R137). -/
theorem instrOf_eq_none_iff : instrOf k f = none ↔ regCmd f ∉ k.toList := by
  unfold instrOf
  repeat' split
  all_goals simp_all [CmdCodes.toList]

/-- Whether a frame is of one of the six commands depends on its command byte alone. -/
theorem instrOf_eq_none_congr (h : regCmd g = regCmd f) : instrOf k g = none ↔ instrOf k f = none := by
  rw [instrOf_eq_none_iff, instrOf_eq_none_iff, h]

/-- Distinct codes: each command is selected by its own code, past the arms before it (R74, R130). -/
theorem instrOf_of_code (hk : k.toList.Nodup) (hcode : i.code k = regCmd f) (hfields : i.fields = fieldsOf f) :
    instrOf k f = some i := by
  simp only [CmdCodes.toList, List.nodup_cons, List.mem_cons, List.not_mem_nil, not_or, or_false] at hk
  cases i <;> grind [instrOf, Instr.code, Instr.fields]

/-! ### The round trips -/

theorem decodeFrame_of_some (hv : validate c f = .valid) (hi : instrOf c.cmdCode f = some i) :
    decodeFrame c f = .instr i := by
  simp only [decodeFrame, hv, hi]

theorem decodeFrame_of_none (hv : validate c f = .valid) (hi : instrOf c.cmdCode f = none) :
    decodeFrame c f = .rejected (.unknownCommand (regCmd f)) := by
  simp only [decodeFrame, hv, hi]

/-- Bytes that decode to an instruction are those of a frame (R70). -/
theorem decode_eq_instr {bytes : List Byte} (h : decode c bytes = .instr i) :
    ∃ f : Frame, f.toList = bytes ∧ decodeFrame c f = .instr i := by
  unfold decode at h
  split at h
  · exact ⟨_, rfl, h⟩
  · cases h

/-- Settles O1: the frame of the instruction is valid, and its own code selects it with its own fields. -/
theorem decodeOfEncodeIsInstruction : Obligations.DecodeOfEncodeIsInstruction := by
  intro c i hc hi
  obtain ⟨hcodes, -⟩ := hc
  obtain ⟨-, -, hcmd, hfields, -⟩ := frameOf_registers c (i.code c.cmdCode) i.fields
  exact (decode_toList _ _).trans
    (decodeFrame_of_some (validate_frameOf hi) (instrOf_of_code hcodes hcmd.symm hfields.symm))

/-- Settles O2: the bytes are those of a valid frame, which its command byte and fields determine. -/
theorem encodeOfDecodeIsBytes : Obligations.EncodeOfDecodeIsBytes := by
  intro c bytes i h
  obtain ⟨f, rfl, hf⟩ := decode_eq_instr h
  obtain ⟨hv, hi⟩ := decodeFrame_eq_instr hf
  obtain ⟨hcode, hfields⟩ := instrOf_eq_some hi
  constructor
  · rw [encode, encodeFrame, hcode, hfields, frameOf_eq_self hv]
  · rw [Instr.wf, hfields, fieldsOf_wf hv]

/-- Settles O4: the frame is valid, and its command byte passes all six arms. -/
theorem unknownCommandDecodesByName : Obligations.UnknownCommandDecodesByName := by
  intro c cmd fs hfs hcmd
  obtain ⟨-, -, hreg, -⟩ := frameOf_registers c cmd fs
  have hnone : instrOf c.cmdCode (frameOf c cmd fs) = none := by rwa [instrOf_eq_none_iff, hreg]
  rw [decode_toList, decodeFrame_of_none (validate_frameOf hfs) hnone, hreg]

/-- Settles O5: LE16 and LE32 are the weighted sums of their bytes, and lo8 and hi8 undo LE16. -/
theorem fieldsAreLittleEndian : Obligations.FieldsAreLittleEndian := by
  intro f
  obtain ⟨h11, h12, h13, h14⟩ := regData_bytes f
  refine ⟨rfl, rfl, rfl, rfl, le32_toNat .., le16_toNat .., h11, h12, h13, h14, le16_toNat .., fun v => ?_⟩
  exact ⟨by simp [writeCsum], by simp [writeCsum], regCsum_writeCsum v f⟩

end Sys2Proof
end

section
/-! SUPPORT. Responses as frames (30_encoding.md R81, 44_dispatcher.md R138, R139, R143): the response to a valid frame
is a valid frame of the same command, and stays in the buffer while it is queued. -/

namespace Sys2Proof.Machine

variable {c : Config} {i : Instr} {f g : Frame} {s t : State}

/-! ### The response to a valid frame -/

/-- A frame that agrees with a valid one outside DATA has a valid response: FLAGS is not checked, and the checksum
is computed again (R138, R139). -/
theorem validate_responseFrame (fb : FlagBits) (ok : Bool) (hv : validate c f = .valid)
    (hg : ∀ j (hj : j < 18), ¬ (11 ≤ j ∧ j < 15) → g[j] = f[j]) :
    validate c (responseFrame fb ok g) = .valid := by
  obtain ⟨hsof, heof, hlen, -⟩ := validate_eq_valid_iff.mp hv
  have hbyte (j : Nat) (hj : j < 18) (h2 : j ≠ 2) (hbody : j < 11 ∨ j = 17) :
      (responseFrame fb ok g)[j] = f[j] :=
    (responseFrame_getElem fb ok g j hj h2 (by omega) (by omega)).trans (hg j hj (by omega))
  refine validate_eq_valid_iff.mpr ⟨?_, ?_, ?_, (regCsum_responseFrame fb ok g).symm⟩
  · rw [← hsof]; exact hbyte 0 (by decide) (by decide) (by decide)
  · rw [← heof]; exact hbyte 17 (by decide) (by decide) (by decide)
  · have : regLen (responseFrame fb ok g) = regLen f := by simp [regLen, hbyte]
    rwa [this]

theorem ack_responseFrame {fb : FlagBits} (h : fb.ack ≠ fb.statusError) (ok : Bool) (g : Frame) :
    (regFlags (responseFrame fb ok g)).getLsbD fb.ack.val = true := by
  rw [regFlags_responseFrame, responseFlags_getLsbD _ _ _ _ h, answeredFlag, if_pos rfl]

/-- Judging a valid frame leaves in the buffer a valid frame with the same command byte and with ACK set. -/
theorem complete_response (hl : s.cfg.Legal) (hv : validate s.cfg s.buf = .valid) (h : complete s = .next t) :
    validate t.cfg t.buf = .valid ∧ (regFlags t.buf).getLsbD s.cfg.flagBit.ack.val = true ∧
      regCmd t.buf = regCmd s.buf := by
  obtain ⟨⟨hcfg, -⟩, ⟨cls, hinv, -⟩ | ⟨-, -, -, -, f, ok, hbuf, hf, -⟩⟩ := complete_frame h
  · rw [hv] at hinv; cases hinv
  · rw [hcfg, hbuf]
    refine ⟨validate_responseFrame _ ok hv hf, ack_responseFrame (ack_ne_statusError hl) ok f, ?_⟩
    exact (responseFrame_getElem _ ok f 1 (by decide) (by decide) (by decide) (by decide)).trans
      (hf 1 (by decide) (by decide))

theorem complete_of_valid (hv : validate s.cfg s.buf = .valid) : complete s = dispatch s := by
  simp only [complete, hv]

theorem dispatch_of_some (hi : instrOf s.cfg.cmdCode s.buf = some i) : dispatch s = exec i s := by
  simp only [dispatch, hi]

/-- Settles O31: the response keeps the command byte and is valid, so it is selected by the same arm. -/
theorem responseIsAValidFrame : Obligations.ResponseIsAValidFrame := by
  intro s t hl
  simp only [decode_toList]
  constructor
  · intro i hdec hexec
    obtain ⟨hv, hi⟩ := decodeFrame_eq_instr hdec
    have hcomplete : complete s = .next t := by rw [complete_of_valid hv, dispatch_of_some hi, hexec]
    obtain ⟨hvalid, hack, hcmd⟩ := complete_response hl hv hcomplete
    have hsome : instrOf t.cfg.cmdCode t.buf ≠ none := by
      rw [complete_cfg hcomplete, Ne, instrOf_eq_none_congr hcmd, hi]
      exact Option.some_ne_none i
    obtain ⟨j, hj⟩ := Option.ne_none_iff_exists'.mp hsome
    refine ⟨j, decodeFrame_of_some hvalid hj, ?_, hack⟩
    obtain ⟨hcode, -⟩ := instrOf_eq_some hi
    obtain ⟨hcode', -⟩ := instrOf_eq_some hj
    rw [hcode, ← hcmd, ← hcode', complete_cfg hcomplete]
  · intro cmd hdec hdispatch
    obtain ⟨hv, hnone, rfl⟩ := decodeFrame_eq_unknown hdec
    have hcomplete : complete s = .next t := (complete_of_valid hv).trans hdispatch
    obtain ⟨hvalid, hack, hcmd⟩ := complete_response hl hv hcomplete
    rw [← instrOf_eq_none_congr hcmd, ← complete_cfg hcomplete] at hnone
    rw [decodeFrame_of_none hvalid hnone, hcmd]
    exact ⟨rfl, hack⟩

/-! ### The frame being queued -/

theorem emitsValid_of_run (h : s.phase = .run) : s.EmitsValid := by
  simp only [State.EmitsValid, h]

theorem emitsValid_emit_iff {n : Fin 18} (h : s.phase = .emit n) :
    s.EmitsValid ↔
      validate s.cfg s.buf = .valid ∧ (regFlags s.buf).getLsbD s.cfg.flagBit.ack.val = true := by
  simp only [State.EmitsValid, h]

/-- What is asked of the frame being queued is kept where parameters, buffer and phase are. -/
theorem emitsValid_congr (hcfg : t.cfg = s.cfg) (hbuf : t.buf = s.buf) (hphase : t.phase = s.phase)
    (h : s.EmitsValid) : t.EmitsValid := by
  simp only [State.EmitsValid, hcfg, hbuf, hphase] at h ⊢
  exact h

theorem parseIdle_phase (b : Byte) (s : State) : (parseIdle b s).phase = s.phase := by
  by_cases h : b = s.cfg.startMarker
  · simp [parseIdle_marker h]
  · simp [parseIdle_other h]

theorem appendByte_phase (b : Byte) (s : State) : (appendByte b s).phase = s.phase := by
  unfold appendByte
  rw [storeByte_rest]
  rfl

/-- A frame judged in RUN is dropped, with the phase still RUN, or answered by a valid frame. -/
theorem complete_emitsValid (hl : s.cfg.Legal) (hp : s.phase = .run) (h : complete s = .next t) :
    t.EmitsValid := by
  obtain ⟨⟨hcfg, -⟩, ⟨cls, -, rfl⟩ | ⟨hv, hphase, -⟩⟩ := complete_frame h
  · exact emitsValid_of_run hp
  · obtain ⟨hvalid, hack, -⟩ := complete_response hl hv h
    rw [emitsValid_emit_iff hphase, hcfg]
    exact ⟨hcfg ▸ hvalid, hack⟩

/-- A byte taken in RUN leaves the phase RUN unless it completes a frame. -/
theorem engineByte_emitsValid (hl : s.cfg.Legal) (hp : s.phase = .run) (h : engineByte s = .next t) :
    t.EmitsValid := by
  rcases engineByte_cases s with
    ⟨-, e⟩ | ⟨b, rx, -, ⟨-, e⟩ | ⟨-, -, e⟩ | ⟨-, -, -, e⟩ | ⟨-, -, -, e⟩⟩ <;> rw [e] at h
  case inr.inr.inr.inr => exact complete_emitsValid (s := s.collected b rx) hl hp h
  all_goals cases h; apply emitsValid_of_run
  · exact hp
  · exact (parseIdle_phase b _).trans hp
  · exact hp
  · exact (appendByte_phase b _).trans hp

/-- The offer of byte n leaves parameters and buffer alone, so the frame stays valid for the bytes still to come. -/
theorem nextEmit_emitsValid (n : Fin 18)
    (h : validate s.cfg s.buf = .valid ∧ (regFlags s.buf).getLsbD s.cfg.flagBit.ack.val = true) :
    (nextEmit n s).EmitsValid := by
  rw [nextEmit_eq]
  split
  · exact emitsValid_of_run rfl
  · exact (emitsValid_emit_iff rfl).mpr h

theorem engineEmit_emitsValid {n : Fin 18} (hp : s.phase = .emit n) (h : s.EmitsValid) :
    (engineEmit n s).EmitsValid := by
  have hframe := (emitsValid_emit_iff hp).mp h
  rcases engineEmit_cases n s with ⟨tx, -, e⟩ | ⟨-, -, e⟩ | ⟨-, -, e⟩ <;> rw [e]
  · exact nextEmit_emitsValid n hframe
  · exact nextEmit_emitsValid n hframe
  · exact emitsValid_of_run rfl

theorem takeTurn_emitsValid {turn : Turn} (hl : s.cfg.Legal) (h : s.EmitsValid)
    (ht : takeTurn turn s = .next t) : t.EmitsValid := by
  cases turn with
  | linkPush b =>
    have hkeeps : s.LinkKeeps t := takeTurn_link_keeps rfl ht
    exact emitsValid_congr (takeTurn_cfg ht) hkeeps.buf hkeeps.phase h
  | linkPop =>
    have hkeeps : s.LinkKeeps t := takeTurn_link_keeps rfl ht
    exact emitsValid_congr (takeTurn_cfg ht) hkeeps.buf hkeeps.phase h
  | engine =>
    have ht : engineTurn s = .next t := ht
    cases hp : s.phase with
    | run => exact engineByte_emitsValid hl hp ((engineTurn_run hp).symm.trans ht)
    | emit n =>
      rw [engineTurn_emit hp] at ht
      cases ht
      exact engineEmit_emitsValid hp h
  | blockReset =>
    cases ht
    obtain ⟨-, -, hphase, -⟩ := blockReset_fields s
    exact emitsValid_of_run hphase

theorem nextTurn_emitsValid {u : State} {turn : Option Turn} (hn : s.nextTurn = (turn, u))
    (h : s.EmitsValid) : u.EmitsValid := by
  rw [nextTurn_state hn]
  exact emitsValid_congr rfl rfl rfl h

/-- Settles O47: the engine enters EMIT only with a response it has formed from a valid frame, and no turn in EMIT
writes the buffer. -/
theorem stepKeepsEmittedFrameValid : Obligations.StepKeepsEmittedFrameValid := by
  intro s t hinv hvalid hstep
  obtain ⟨u, hn, rfl⟩ | ⟨turn, u, hn, hturn⟩ := step_cases hstep
  · exact nextTurn_emitsValid hn hvalid
  · exact takeTurn_emitsValid (nextTurn_inv hinv hn).legal (nextTurn_emitsValid hn hvalid) hturn

end Sys2Proof.Machine
end

section
/-! SUPPORT. The byte channels as bounded queues (40_byte_channel.md R90 to R92, R96, R97): when a channel is empty or
full, what each of its operations does then, a burst of pushes into RX, and the level tx_ready. -/

namespace Sys2Proof.Machine

variable {n : Nat} {ch ch' : Channel} {b : Byte} {s t : State}

/-! ### Empty and full -/

theorem Channel.pop_eq_none_iff : ch.pop n = none ↔ ch.head = ch.tail := by
  refine ⟨fun h => Decidable.byContradiction fun hheld => ?_, pop_empty⟩
  rw [pop_byte hheld] at h
  cases h

theorem Channel.push_eq_none_iff : ch.push n b = none ↔ (ch.head.toNat + 1) % n = ch.tail.toNat := by
  refine ⟨fun h => Decidable.byContradiction fun hroom => ?_, push_full⟩
  rw [push_room hroom] at h
  cases h

theorem Channel.occupancy_eq_zero_iff (h : ch.Wf n) : ch.occupancy n = 0 ↔ ch.head = ch.tail := by
  have hocc := Channel.occupancy_cases h
  have ht := h.tail
  rw [← BitVec.toNat_inj]
  omega

/-- A channel is full at n - 1 bytes: the last slot is never used (R92). -/
theorem Channel.occupancy_eq_pred_iff (h : ch.Wf n) :
    ch.occupancy n = n - 1 ↔ (ch.head.toNat + 1) % n = ch.tail.toNat := by
  have hocc := Channel.occupancy_cases h
  have hh := h.head
  have ht := h.tail
  rw [succ_mod hh]
  split <;> omega

theorem Channel.occupancy_le_pred (h : ch.Wf n) : ch.occupancy n ≤ n - 1 :=
  Nat.le_sub_one_of_lt (Channel.occupancy_lt h)

/-- R92's difference as an integer: adding n, which keeps the natural difference from truncating, changes nothing. -/
theorem Channel.occupancy_eq_emod (h : ch.Wf n) :
    (ch.occupancy n : Int) = ((ch.head.toNat : Int) - (ch.tail.toNat : Int)) % (n : Int) := by
  have hle : ch.tail.toNat ≤ ch.head.toNat + n := Nat.le_add_left_of_le (Nat.le_of_lt h.tail)
  have hshift : ((ch.head.toNat + n : Nat) : Int) - ch.tail.toNat = ch.head.toNat - ch.tail.toNat + n := by
    omega
  rw [Channel.occupancy, Int.natCast_emod, Int.ofNat_sub hle, hshift, Int.add_emod_right]

@[simp] theorem Channel.length_contents (n : Nat) (ch : Channel) : (ch.contents n).length = ch.occupancy n := by
  simp [Channel.contents]

theorem Channel.contents_eq_nil_iff (h : ch.Wf n) : ch.contents n = [] ↔ ch.head = ch.tail := by
  rw [← List.length_eq_zero_iff, Channel.length_contents, Channel.occupancy_eq_zero_iff h]

/-- Settles O11: without the modulus, head lies occupancy places after tail, or n places before that. -/
theorem occupancyRange : Obligations.OccupancyRange :=
  fun _ _ _ _ h => ⟨Channel.occupancy_eq_emod h, Channel.occupancy_le_pred h, Channel.occupancy_eq_zero_iff h,
    Channel.pop_eq_none_iff, Channel.occupancy_eq_pred_iff h, fun _ => Channel.push_eq_none_iff⟩

/-! ### The two operations on a queue of at most n - 1 bytes -/

/-- Everything a Push can do to what a channel holds (R90). -/
theorem Channel.push_cases (h : ch.Wf n) (hn : n ≤ 256) (b : Byte) :
    ch.occupancy n = n - 1 ∧ ch.push n b = none ∨
      ch.occupancy n < n - 1 ∧ ∃ ch', ch.push n b = some ch' ∧ ch'.Wf n ∧ ch'.contents n = ch.contents n ++ [b] := by
  rcases Nat.eq_or_lt_of_le (Channel.occupancy_le_pred h) with hfull | hroom
  · exact .inl ⟨hfull, push_full ((Channel.occupancy_eq_pred_iff h).mp hfull)⟩
  · obtain ⟨ch', hpush⟩ := Channel.exists_push h hn hroom b
    exact .inr ⟨hroom, ch', hpush, h.push hn hpush, Channel.contents_push h hn hpush⟩

/-- Everything a Pop can do to what a channel holds (R91). -/
theorem Channel.pop_cases (h : ch.Wf n) (hn : n ≤ 256) :
    ch.contents n = [] ∧ ch.pop n = none ∨
      ∃ b ch', ch.pop n = some (b, ch') ∧ ch'.Wf n ∧ ch.contents n = b :: ch'.contents n := by
  by_cases hempty : ch.head = ch.tail
  · exact .inl ⟨(Channel.contents_eq_nil_iff h).mpr hempty, pop_empty hempty⟩
  · have hpop := pop_byte (n := n) hempty
    exact .inr ⟨_, _, hpop, h.pop hn hpop, Channel.contents_pop h hn hpop⟩

/-- Settles O10: the two operations act on what the channel holds as on a queue. -/
theorem channelRefinesBoundedQueue : Obligations.ChannelRefinesBoundedQueue := by
  intro n ch _ hn h
  simp only [Channel.length_contents]
  exact ⟨Channel.push_cases h hn, Channel.pop_cases h hn⟩

/-- Settles O9: a Push with room is one write to the list of slots, at head, which is within the list. -/
theorem pushWritesOneSlotOrIsFull : Obligations.PushWritesOneSlotOrIsFull := by
  intro n ch b hn h
  have hlen : ch.head.toNat < ch.slots.length := h.slots.symm ▸ h.head
  refine ⟨push_full, fun hroom => ⟨_, push_room hroom, ?_, ?_, ?_, ?_, rfl⟩⟩
  · exact List.getElem?_set_self hlen
  · exact List.length_set
  · exact fun j hj => List.getElem?_set_ne hj.symm
  · exact nextIndex_toNat n (Nat.zero_lt_of_lt h.head) hn ch.head

/-! ### A burst into RX -/

theorem step_linkPush_of_push {rest : List Turn} {filled : Channel} (hturns : s.turns = .linkPush b :: rest)
    (h : s.rx.push s.cfg.rxSlots b = some filled) :
    step s = .next (((s.setTurns rest).setRx filled).setReply .pushOk) :=
  (step_of_turns hturns).trans (congrArg Host.Outcome.next (linkPush_of_push (s := s.setTurns rest) h))

theorem step_linkPush_of_full {rest : List Turn} (hturns : s.turns = .linkPush b :: rest)
    (h : s.rx.push s.cfg.rxSlots b = none) :
    step s = .next (((s.setTurns rest).record (.rxOverflow b)).setReply .pushFull) :=
  (step_of_turns hturns).trans (congrArg Host.Outcome.next (linkPush_of_full (s := s.setTurns rest) h))

/-- Scheduled pushes with no other turn between: RX holds what it held and then the bytes, as far as N - 1 of them,
and each byte beyond is recorded as lost (R97). -/
theorem run_linkPush_burst (bytes : List Byte) (rest : List Turn) (h : s.Inv)
    (hturns : s.turns = bytes.map Turn.linkPush ++ rest) :
    ∃ t, core.run bytes.length s = .next t ∧
      t.rx.contents s.cfg.rxSlots = (s.rx.contents s.cfg.rxSlots ++ bytes).take (s.cfg.rxSlots - 1) ∧
      t.trace = s.trace ++
        (bytes.drop (s.cfg.rxSlots - 1 - s.rx.occupancy s.cfg.rxSlots)).map Event.rxOverflow ∧
      t.turns = rest := by
  induction bytes generalizing s with
  | nil =>
    refine ⟨s, rfl, ?_, by simp, hturns⟩
    rw [List.append_nil, List.take_of_length_le]
    simpa using Channel.occupancy_le_pred h.rx
  | cons b bytes ih =>
    rcases Channel.push_cases h.rx (rxSlots_le h.legal) b with
      ⟨hfull, hpush⟩ | ⟨hroom, filled, hpush, -, hcontents⟩
    · have hstep := step_linkPush_of_full hturns hpush
      obtain ⟨t, hrun, hheld, htrace, hrest⟩ := ih (step_inv h hstep) rfl
      refine ⟨t, (run_succ hstep).trans hrun, hheld.trans ?_, htrace.trans ?_, hrest⟩
      · simp [hfull]
      · simp [hfull]
    · have hstep := step_linkPush_of_push hturns hpush
      obtain ⟨t, hrun, hheld, htrace, hrest⟩ := ih (step_inv h hstep) rfl
      have hocc := Channel.occupancy_push h.rx (rxSlots_le h.legal) hpush
      have hdrop : s.cfg.rxSlots - 1 - s.rx.occupancy s.cfg.rxSlots =
          s.cfg.rxSlots - 1 - filled.occupancy s.cfg.rxSlots + 1 := by omega
      refine ⟨t, (run_succ hstep).trans hrun, hheld.trans ?_, htrace.trans ?_, hrest⟩
      · simp [hcontents]
      · simp [hdrop]

/-- Settles O12: the burst from an empty RX, whose N - 1 free places the first N - 1 bytes take. -/
theorem burstFillsRxAndDropsRest : Obligations.BurstFillsRxAndDropsRest := by
  intro s bytes rest h hempty hlen hturns
  obtain ⟨t, hrun, hheld, htrace, hrest⟩ := run_linkPush_burst bytes rest h hturns
  rw [(Channel.contents_eq_nil_iff h.rx).mpr hempty, List.nil_append] at hheld
  rw [(Channel.occupancy_eq_zero_iff h.rx).mpr hempty, Nat.sub_zero] at htrace
  refine ⟨t, hrun, ?_, hheld, htrace, hrest⟩
  rw [← Channel.length_contents, hheld, List.length_take_of_le hlen]

/-! ### The level tx_ready -/

theorem txReady_iff : s.txReady = true ↔ s.tx.head ≠ s.tx.tail := by
  simp [State.txReady, Channel.isEmpty]

theorem txReady_eq_false_iff : s.txReady = false ↔ s.tx.head = s.tx.tail := by
  simp [State.txReady, Channel.isEmpty]

theorem Channel.head_ne_tail_of_push (h : ch.Wf n) (hn : n ≤ 256) (hp : ch.push n b = some ch') :
    ch'.head ≠ ch'.tail := by
  rw [Ne, ← Channel.occupancy_eq_zero_iff (h.push hn hp), Channel.occupancy_push h hn hp]
  exact Nat.succ_ne_zero _

/-- Of the emptying pop: one byte was held. -/
theorem Channel.head_eq_tail_of_pop_iff (h : ch.Wf n) (hn : n ≤ 256) (hp : ch.pop n = some (b, ch')) :
    ch'.head = ch'.tail ↔ ch.occupancy n = 1 := by
  rw [← Channel.occupancy_eq_zero_iff (h.pop hn hp), Channel.occupancy_pop h hn hp, Nat.add_eq_right]

/-- In RUN the engine does not touch TX. -/
theorem engineByte_tx (h : engineByte s = .next t) : t.tx = s.tx := by
  rcases engineByte_cases s with
    ⟨-, e⟩ | ⟨b, rx, -, ⟨-, e⟩ | ⟨-, -, e⟩ | ⟨-, -, -, e⟩ | ⟨-, -, -, e⟩⟩ <;> rw [e] at h
  case inr.inr.inr.inr => exact (complete_keepsPorts h).tx
  all_goals cases h
  · rfl
  · exact (parseIdle_keepsPorts b _).tx
  · rfl
  · exact (appendByte_keepsPorts b _).tx

/-- The one thing the engine can do to TX is a push. -/
theorem engineTurn_tx (h : engineTurn s = .next t) :
    t.tx = s.tx ∨ ∃ b, s.tx.push s.cfg.txSlots b = some t.tx := by
  cases hp : s.phase with
  | run =>
    rw [engineTurn_run hp] at h
    exact .inl (engineByte_tx h)
  | emit k =>
    rw [engineTurn_emit hp] at h
    cases h
    rcases engineEmit_cases k s with ⟨tx, hpush, e⟩ | ⟨-, -, e⟩ | ⟨-, -, e⟩ <;> rw [e]
    · have htx : (nextEmit k (s.setTx tx)).tx = tx := (nextEmit_keepsPorts k _).tx
      exact .inr ⟨s.buf[k], by rw [htx, hpush]⟩
    · exact .inl (nextEmit_keepsPorts k _).tx
    · exact .inl rfl

theorem engineTurn_txReady (h : s.Inv) (ht : engineTurn s = .next t) (hready : s.txReady = true) :
    t.txReady = true := by
  rw [txReady_iff] at hready ⊢
  rcases engineTurn_tx ht with htx | ⟨b, hpush⟩
  · rwa [htx]
  · exact Channel.head_ne_tail_of_push h.tx (txSlots_le h.legal) hpush

/-- Settles O13: tx_ready says that TX is not empty; only a Pop takes a byte, and the engine makes none on TX. -/
theorem txReadyArmsAndDisarms : Obligations.TxReadyArmsAndDisarms := by
  refine ⟨fun _ => txReady_iff, fun s b ch hl hw hpush => ?_, fun s b ch hl hw hpop => ?_,
    fun s u t h hn ht hready => ?_⟩
  · exact txReady_iff.mpr (Channel.head_ne_tail_of_push hw (txSlots_le hl) hpush)
  · exact txReady_eq_false_iff.trans (Channel.head_eq_tail_of_pop_iff hw (txSlots_le hl) hpop)
  · rw [step_of_turn hn] at ht
    refine engineTurn_txReady (nextTurn_inv h hn) ht ?_
    rw [nextTurn_state hn]
    exact hready

end Sys2Proof.Machine
end

section
/-! SUPPORT. The checksum (41_checksum.md R100, R101, R104): x of a step is one byte, the high byte of the accumulator
with the new byte XORed in, and a step is eight bits of the CRC with polynomial 0x1021. One bit of that CRC is
additive, so the two bytes of the accumulator are looked at apart: the low one is only shifted up, the high one
leaves its remainder. -/

namespace Sys2Proof.Machine

/-! ### The step over bytes -/

/-- The value `x` of R100 after its second line, held in 8 bits: of the byte it has after its first line. -/
def crcFoldByte (h : Byte) : Byte := h ^^^ (h >>> 4)

/-- What a step adds to the accumulator shifted up by one byte (R100, third line). -/
def crcByteRemainder (h : Byte) : Half :=
  ((crcFoldByte h).setWidth 16 <<< 12) ^^^ ((crcFoldByte h).setWidth 16 <<< 5) ^^^ (crcFoldByte h).setWidth 16

theorem setWidth_ushiftRight_eight (v : Half) : (v >>> 8).setWidth 8 = hi8 v := by
  apply BitVec.eq_of_toNat_eq
  simp [hi8]

theorem ushiftRight_eight (v : Half) : v >>> 8 = (hi8 v).setWidth 16 := by
  apply BitVec.eq_of_toNat_eq
  rw [BitVec.toNat_setWidth_of_le (by decide), hi8_toNat, BitVec.toNat_ushiftRight, Nat.shiftRight_eq_div_pow]

theorem crcFold_eq_setWidth (crc : Half) (b : Byte) :
    crcFold crc b = (crcFoldByte (hi8 crc ^^^ b)).setWidth 16 := by
  simp only [crcFold, crcFoldByte, ushiftRight_eight, BitVec.setWidth_xor,
    BitVec.setWidth_ushiftRight (show 8 ≤ 16 by decide)]

theorem crcFold_toNat_le (crc : Half) (b : Byte) : (crcFold crc b).toNat ≤ 0xFF := by
  rw [crcFold_eq_setWidth, BitVec.toNat_setWidth_of_le (by decide)]
  exact Nat.le_of_lt_succ (BitVec.isLt _)

theorem crc16Step_eq_shiftLeft_xor (crc : Half) (b : Byte) :
    crc16Step crc b = (crc <<< 8) ^^^ crcByteRemainder (hi8 crc ^^^ b) := by
  simp only [crc16Step, crcByteRemainder, crcFold_eq_setWidth, BitVec.xor_assoc]

/-- Settles O6: in both widths x is the same byte, made of the high byte of the accumulator and the new byte. -/
theorem crcStepSameInEightBits : Obligations.CrcStepSameInEightBits := by
  intro crc b
  refine ⟨crcFold_toNat_le crc b, ?_⟩
  rw [setWidth_ushiftRight_eight, crc16Step, crcFold_eq_setWidth]
  rfl

/-! ### The bitwise CRC -/

theorem le16_eq_xor (a b : Byte) : le16 a b = a.setWidth 16 ^^^ (b.setWidth 16 <<< 8) := by
  apply BitVec.eq_of_getLsbD_eq
  intro i hi
  simp only [le16, BitVec.getLsbD_or, BitVec.getLsbD_xor, BitVec.getLsbD_setWidth, BitVec.getLsbD_shiftLeft]
  by_cases hlow : i < 8
  · simp [hlow]
  · simp [BitVec.getLsbD_of_ge a i (by omega)]

/-- The new byte is XORed into the high byte alone. -/
theorem xor_shiftLeft_eight (crc : Half) (b : Byte) :
    crc ^^^ (b.setWidth 16 <<< 8) = (lo8 crc).setWidth 16 ^^^ ((hi8 crc ^^^ b).setWidth 16 <<< 8) := by
  rw [BitVec.setWidth_xor, BitVec.shiftLeft_xor_distrib, ← BitVec.xor_assoc, ← le16_eq_xor, le16_lo8_hi8]

theorem setWidth_lo8_shiftLeft_eight (v : Half) : (lo8 v).setWidth 16 <<< 8 = v <<< 8 := by
  apply BitVec.eq_of_toNat_eq
  simp only [BitVec.toNat_shiftLeft, BitVec.toNat_setWidth, lo8_toNat, Nat.shiftLeft_eq]
  omega

theorem crcBit_of_msb_false {v : Half} (h : v.getLsbD 15 = false) : crcBit v = v <<< 1 := by
  simp only [crcBit, h, Bool.false_eq_true, if_false]

/-- One bit of the CRC is additive: the polynomial is XORed in for the sum as often as for the two terms. -/
theorem crcBit_xor (v w : Half) : crcBit (v ^^^ w) = crcBit v ^^^ crcBit w := by
  simp only [crcBit, BitVec.getLsbD_xor, BitVec.shiftLeft_xor_distrib]
  cases v.getLsbD 15 <;> cases w.getLsbD 15
  case false.false => simp
  case false.true => simp [BitVec.xor_assoc]
  case true.false => simp [BitVec.xor_assoc, BitVec.xor_comm 0x1021#16]
  case true.true =>
    simp only [Bool.xor_self, Bool.false_eq_true, if_false, if_true]
    rw [BitVec.xor_comm (w <<< 1) 0x1021#16, BitVec.xor_assoc, ← BitVec.xor_assoc 0x1021#16, BitVec.xor_self,
      BitVec.zero_xor]

/-- `n` bits of the CRC. -/
def crcBits : Nat → Half → Half
  | 0, v => v
  | n + 1, v => crcBit (crcBits n v)

theorem crcBits_xor (n : Nat) (v w : Half) : crcBits n (v ^^^ w) = crcBits n v ^^^ crcBits n w := by
  induction n with
  | zero => rfl
  | succ n ih => rw [crcBits, ih, crcBit_xor, crcBits, crcBits]

/-- While only zeros reach the top, the bits of a low byte are shifted up. -/
theorem crcBits_setWidth (l : Byte) {n : Nat} (hn : n ≤ 8) :
    crcBits n (l.setWidth 16) = l.setWidth 16 <<< n := by
  induction n with
  | zero => exact (BitVec.shiftLeft_zero _).symm
  | succ n ih =>
    have hmsb : (l.setWidth 16 <<< n).getLsbD 15 = false := by
      rw [BitVec.getLsbD_shiftLeft, BitVec.getLsbD_setWidth, BitVec.getLsbD_of_ge l _ (by omega)]
      simp
    rw [crcBits, ih (by omega), crcBit_of_msb_false hmsb, BitVec.shiftLeft_add]

/-- Eight bits of the CRC on a high byte, over the 256 bytes. -/
theorem crcBits_highByte (h : Byte) : crcBits 8 (h.setWidth 16 <<< 8) = crcByteRemainder h := by
  revert h; decide

theorem crcBitwiseStep_eq_crcBits (crc : Half) (b : Byte) :
    crcBitwiseStep crc b = crcBits 8 (crc ^^^ (b.setWidth 16 <<< 8)) := rfl

theorem crc16Step_eq_crcBitwiseStep : crc16Step = crcBitwiseStep := by
  funext crc b
  calc crc16Step crc b
      = (crc <<< 8) ^^^ crcByteRemainder (hi8 crc ^^^ b) := crc16Step_eq_shiftLeft_xor crc b
    _ = crcBits 8 ((lo8 crc).setWidth 16) ^^^ crcBits 8 ((hi8 crc ^^^ b).setWidth 16 <<< 8) := by
        rw [crcBits_setWidth _ (Nat.le_refl 8), setWidth_lo8_shiftLeft_eight, crcBits_highByte]
    _ = crcBitwiseStep crc b := by
        rw [← crcBits_xor, ← xor_shiftLeft_eight, crcBitwiseStep_eq_crcBits]

/-- Settles O7: both are folds from the same initial value, of steps that are equal. -/
theorem crcIsBitwisePolynomial : Obligations.CrcIsBitwisePolynomial := by
  intro bytes
  rw [crc16, crc16Step_eq_crcBitwiseStep]
  rfl

end Sys2Proof.Machine
end

section
/-! SUPPORT. The frame parser (42_parser.md R110 to R118): what the engine's turn does with the byte it pops, which
events a step records, and the paths on which the cursor returns to IDLE. -/

namespace Sys2Proof.Machine

variable {s t u : State} {b : Byte} {rx : Channel}

/-! ### The byte popped -/

theorem step_of_engine_run (hn : s.nextTurn = (some .engine, u)) (hp : u.phase = .run) : step s = engineByte u :=
  (step_of_turn hn).trans (engineTurn_run hp)

theorem engineByte_of_empty (h : s.rx.head = s.rx.tail) : engineByte s = .next s := by
  simp only [engineByte, pop_empty h]

theorem engineByte_of_pop (h : s.rx.pop s.cfg.rxSlots = some (b, rx)) :
    engineByte s = parseByte b (s.setRx rx) := by
  simp only [engineByte, h]

theorem parseByte_of_idle (h : s.started = false) : parseByte b s = .next (parseIdle b s) := by
  simp only [parseByte, h, Bool.false_eq_true, if_false]

theorem parseByte_of_started (h : s.started = true) : parseByte b s = parseCollect b s := by
  simp only [parseByte, h, if_true]

theorem parseCollect_of_overflow (h : s.cfg.bufSize ≤ s.idx.toNat) :
    parseCollect b s = .next (s.drop .overflow) := by
  rcases parseCollect_cases b s with ⟨-, e⟩ | ⟨hlt, -⟩ | ⟨hlt, -⟩
  · exact e
  · exact absurd h (Nat.not_le.mpr hlt)
  · exact absurd h (Nat.not_le.mpr hlt)

/-- A byte before the 18th is stored and no more (R112). -/
theorem parseCollect_of_lt (h : s.idx.toNat < 17) (hbuf : 18 ≤ s.cfg.bufSize) :
    parseCollect b s = .next (appendByte b s) := by
  rcases parseCollect_cases b s with ⟨hfull, -⟩ | ⟨-, -, e⟩ | ⟨-, hlast, -⟩
  · omega
  · exact e
  · rw [hlast] at h
    exact absurd h (by decide)

/-- Settles O16: an empty RX gives the engine no byte. -/
theorem engineWaitsOnEmptyRx : Obligations.EngineWaitsOnEmptyRx :=
  fun _ _ hn hp hempty => (step_of_engine_run hn hp).trans (engineByte_of_empty hempty)

/-- Settles O14: in IDLE the byte popped goes to `parseIdle`, whose two arms these are. -/
theorem idleByteOpensFrameOrIsDiscarded : Obligations.IdleByteOpensFrameOrIsDiscarded := by
  intro s u b rx hn hp hs hpop
  rw [step_of_engine_run hn hp, engineByte_of_pop hpop, parseByte_of_idle (s := u.setRx rx) hs]
  split
  next hmarker => exact congrArg Host.Outcome.next (parseIdle_marker (s := u.setRx rx) hmarker)
  next hother => exact congrArg Host.Outcome.next (parseIdle_other (s := u.setRx rx) hother)

/-- Settles O15: below 17 neither the guard nor the end of the frame is reached, and the store is in the frame. -/
theorem collectedByteIsData : Obligations.CollectedByteIsData := by
  intro s u b rx i hn hp hs hi hbuf hpop
  have hidx : u.idx = BitVec.ofNat 8 i.val := by rw [← hi, BitVec.ofNat_toNat, BitVec.setWidth_eq]
  have hnext : u.idx + 1#8 = BitVec.ofNat 8 (i.val + 1) := by rw [hidx, BitVec.ofNat_add]
  have h17 : u.idx.toNat < 17 := hi.symm ▸ i.isLt
  rw [step_of_engine_run hn hp, engineByte_of_pop hpop, parseByte_of_started (s := u.setRx rx) hs,
    parseCollect_of_lt (s := u.setRx rx) h17 hbuf,
    appendByte_of_lt (s := u.setRx rx) b (Nat.lt_succ_of_lt h17)]
  simp only [State.setRx_idx, hi, hnext]
  rfl

/-! ### The frame completed -/

theorem complete_of_invalid {cls : DropClass} (h : validate s.cfg s.buf = .invalid cls) :
    complete s = .next (s.drop cls) := by
  simp only [complete, h]

/-- Settles O18: the frame is judged in the state that holds it whole, and its rejection is the drop alone. -/
theorem invalidFrameIsDroppedSilently : Obligations.InvalidFrameIsDroppedSilently := by
  intro s u b rx cls hcompleting hinvalid
  exact (step_of_completing hcompleting).trans (complete_of_invalid (s := u.collected b rx) hinvalid)

/-- Settles O19: bytes that decode to i are a valid frame whose command selects i. -/
theorem stepRunsDecodedInstruction : Obligations.StepRunsDecodedInstruction := by
  intro s u b rx i hcompleting hdec
  rw [decode_toList] at hdec
  obtain ⟨hv, hi⟩ := decodeFrame_eq_instr hdec
  calc step s
      = complete (u.collected b rx) := step_of_completing hcompleting
    _ = dispatch (u.collected b rx) := complete_of_valid hv
    _ = exec i (u.collected b rx) := dispatch_of_some hi

/-! ### A next state -/

theorem exists_complete (s : State) : ∃ t, complete s = .next t := by
  rcases complete_cases s with ⟨cls, -, e⟩ | ⟨-, ok, e⟩ | ⟨f, -, e⟩
  · exact ⟨_, e⟩
  · exact ⟨_, e⟩
  · exact ⟨_, e⟩

theorem exists_engineByte (s : State) : ∃ t, engineByte s = .next t := by
  rcases engineByte_cases s with
    ⟨-, e⟩ | ⟨b, rx, -, ⟨-, e⟩ | ⟨-, -, e⟩ | ⟨-, -, -, e⟩ | ⟨-, -, -, e⟩⟩
  · exact ⟨_, e⟩
  · exact ⟨_, e⟩
  · exact ⟨_, e⟩
  · exact ⟨_, e⟩
  · obtain ⟨t, ht⟩ := exists_complete (s.collected b rx)
    exact ⟨t, e.trans ht⟩

theorem exists_engineTurn (s : State) : ∃ t, engineTurn s = .next t := by
  cases hp : s.phase with
  | run =>
    rw [engineTurn_run hp]
    exact exists_engineByte s
  | emit k => exact ⟨_, engineTurn_emit hp⟩

theorem exists_takeTurn (turn : Turn) (s : State) : ∃ t, takeTurn turn s = .next t := by
  cases turn with
  | linkPush b => exact ⟨_, rfl⟩
  | linkPop => exact ⟨_, rfl⟩
  | engine => exact exists_engineTurn s
  | blockReset => exact ⟨_, rfl⟩

/-- Settles O50: a step waits, or takes one turn, and every turn has a next state. -/
theorem everyStateHasANextState : Obligations.EveryStateHasANextState := by
  intro s
  rcases hn : s.nextTurn with ⟨_ | turn, u⟩
  · exact ⟨u, step_of_waiting hn⟩
  · rw [step_of_turn hn]
    exact exists_takeTurn turn u

/-! ### The events a step records -/

/-- The step from s to t takes the 18th byte of a frame and answers it (R114). -/
structure State.AnswersFrame (s t : State) : Prop where
  phase   : s.phase = .run
  started : s.started = true
  idx     : s.idx = 17#8
  emit    : t.phase = .emit 0

/-- The events a step from s to t can record (R160): at most one that is no response and no drop by the guard; a drop
by the guard with the cursor beyond the buffer; or a response, after its read if the command is READ_MEM. -/
inductive State.Records (s t : State) : List Event → Prop
  | nothing : s.Records t []
  | other {e : Event} (response : e.isResponse = false) (guard : e.isOverflowDrop = false) : s.Records t [e]
  | guard (phase : s.phase = .run) (started : s.started = true) (idx : s.cfg.bufSize ≤ s.idx.toNat) :
      s.Records t [.frameDrop .overflow]
  | answer {cmd : Byte} {ok : Bool} (frame : s.AnswersFrame t) : s.Records t [.response cmd ok]
  | readAnswer {zone : Byte} {addr : Word} {n : Half} {m : MemAnswer} {cmd : Byte} {ok : Bool}
      (frame : s.AnswersFrame t) : s.Records t [.memReadEv zone addr n m, .response cmd ok]

/-- From s to t the trace grows by events that such a step can record. -/
def State.GrowsTrace (s t : State) : Prop := ∃ events, t.trace = s.trace ++ events ∧ s.Records t events

theorem growsTrace_of_eq (h : t.trace = s.trace) : s.GrowsTrace t :=
  ⟨[], by rw [h, List.append_nil], .nothing⟩

theorem growsTrace_of_other {e : Event} (h : t.trace = s.trace ++ [e]) (hresponse : e.isResponse = false)
    (hguard : e.isOverflowDrop = false) : s.GrowsTrace t :=
  ⟨[e], h, .other hresponse hguard⟩

/-- The validator names a class of its own, never the guard's (R120). -/
theorem validate_ne_overflow (c : Config) (f : Frame) : validate c f ≠ .invalid .overflow := by
  unfold validate
  repeat' split
  all_goals exact nofun

theorem isOverflowDrop_of_invalid {c : Config} {f : Frame} {cls : DropClass}
    (h : validate c f = .invalid cls) : (Event.frameDrop cls).isOverflowDrop = false := by
  cases cls with
  | framingMarker => rfl
  | framingLength => rfl
  | integrity => rfl
  | overflow => exact absurd h (validate_ne_overflow c f)

theorem parseIdle_trace (b : Byte) (s : State) :
    (parseIdle b s).trace = s.trace ∨ (parseIdle b s).trace = s.trace ++ [.idleDiscard b] := by
  by_cases h : b = s.cfg.startMarker
  · rw [parseIdle_marker h]
    exact .inl rfl
  · rw [parseIdle_other h]
    exact .inr rfl

@[simp] theorem appendByte_trace (b : Byte) (s : State) : (appendByte b s).trace = s.trace := by
  unfold appendByte
  rw [storeByte_rest]
  rfl

/-- Judging the frame records its drop, or the response with the read before it. -/
theorem complete_collected_growsTrace (hp : s.phase = .run) (hs : s.started = true) (hi : s.idx = 17#8)
    (h : complete (s.collected b rx) = .next t) : s.GrowsTrace t := by
  obtain ⟨-, ⟨cls, hinvalid, rfl⟩ | ⟨-, hemit, -, -, -, ok, -, -, ⟨-, htrace⟩ | ⟨g, m, -, -, htrace⟩⟩⟩ :=
    complete_frame h
  · exact growsTrace_of_other rfl rfl (isOverflowDrop_of_invalid hinvalid)
  · exact ⟨_, htrace, .answer ⟨hp, hs, hi, hemit⟩⟩
  · exact ⟨_, htrace, .readAnswer ⟨hp, hs, hi, hemit⟩⟩

theorem engineByte_growsTrace (hp : s.phase = .run) (h : engineByte s = .next t) : s.GrowsTrace t := by
  rcases engineByte_cases s with
    ⟨-, e⟩ | ⟨b, rx, -, ⟨hs, e⟩ | ⟨hs, hi, e⟩ | ⟨-, -, -, e⟩ | ⟨hs, -, hi, e⟩⟩ <;> rw [e] at h
  case inr.inr.inr.inr => exact complete_collected_growsTrace hp hs hi h
  all_goals cases h
  · exact growsTrace_of_eq rfl
  · rcases parseIdle_trace b (s.setRx rx) with htrace | htrace
    · exact growsTrace_of_eq htrace
    · exact growsTrace_of_other htrace rfl rfl
  · exact ⟨_, rfl, .guard hp hs hi⟩
  · exact growsTrace_of_eq (appendByte_trace b _)

@[simp] theorem nextEmit_trace (k : Fin 18) (s : State) : (nextEmit k s).trace = s.trace := by
  rw [nextEmit_eq]
  split <;> rfl

theorem engineEmit_growsTrace (k : Fin 18) (s : State) : s.GrowsTrace (engineEmit k s) := by
  rcases engineEmit_cases k s with ⟨tx, -, e⟩ | ⟨-, -, e⟩ | ⟨-, -, e⟩ <;> rw [e]
  · exact growsTrace_of_eq (nextEmit_trace k _)
  · exact growsTrace_of_other (nextEmit_trace k _) rfl rfl
  · exact growsTrace_of_other rfl rfl rfl

theorem linkPush_growsTrace (b : Byte) (s : State) : s.GrowsTrace (linkPush b s) := by
  rcases linkPush_cases b s with ⟨rx, -, e⟩ | ⟨-, e⟩ <;> rw [e]
  · exact growsTrace_of_eq rfl
  · exact growsTrace_of_other rfl rfl rfl

theorem linkPop_growsTrace (s : State) : s.GrowsTrace (linkPop s) := by
  rcases linkPop_cases s with ⟨b, tx, -, e⟩ | ⟨-, e⟩ <;> rw [e]
  · exact growsTrace_of_other rfl rfl rfl
  · exact growsTrace_of_eq rfl

@[simp] theorem blockReset_trace (s : State) : (blockReset s).trace = s.trace := by
  obtain ⟨-, -, -, -, -, -, -, -, -, -, htrace, -⟩ := blockReset_fields s
  exact htrace

theorem takeTurn_growsTrace {turn : Turn} (h : takeTurn turn s = .next t) : s.GrowsTrace t := by
  cases turn with
  | linkPush b => cases h; exact linkPush_growsTrace b s
  | linkPop => cases h; exact linkPop_growsTrace s
  | blockReset => cases h; exact growsTrace_of_eq (blockReset_trace s)
  | engine =>
    have h : engineTurn s = .next t := h
    cases hp : s.phase with
    | run => exact engineByte_growsTrace hp ((engineTurn_run hp).symm.trans h)
    | emit k =>
      rw [engineTurn_emit hp] at h
      cases h
      exact engineEmit_growsTrace k s

/-- The schedule has no part in what is recorded. -/
theorem State.Records.of_setTurns {ts : List Turn} {events : List Event}
    (h : (s.setTurns ts).Records t events) : s.Records t events := by
  cases h with
  | nothing => exact .nothing
  | other hresponse hguard => exact .other hresponse hguard
  | guard hp hs hi => exact .guard hp hs hi
  | answer h => exact .answer ⟨h.phase, h.started, h.idx, h.emit⟩
  | readAnswer h => exact .readAnswer ⟨h.phase, h.started, h.idx, h.emit⟩

theorem step_growsTrace (h : step s = .next t) : s.GrowsTrace t := by
  obtain ⟨u, hn, rfl⟩ | ⟨turn, u, hn, hturn⟩ := step_cases h
  · rw [nextTurn_state hn]
    exact growsTrace_of_eq rfl
  · rw [nextTurn_state hn] at hturn
    obtain ⟨events, htrace, hevents⟩ := takeTurn_growsTrace hturn
    exact ⟨events, htrace, hevents.of_setTurns⟩

/-- Settles O21: of what a step can record, only what answers a frame holds a response, and it holds one. -/
theorem responseOnlyWhenFrameCompletes : Obligations.ResponseOnlyWhenFrameCompletes := by
  intro s t h
  obtain ⟨events, htrace, hevents⟩ := step_growsTrace h
  refine ⟨events, htrace, ?_⟩
  cases hevents with
  | nothing => exact .inl rfl
  | other hresponse => exact .inl (by simp [hresponse])
  | guard => exact .inl rfl
  | answer h => exact .inr ⟨rfl, h.phase, h.started, h.idx, h.emit⟩
  | readAnswer h => exact .inr ⟨rfl, h.phase, h.started, h.idx, h.emit⟩

/-! ### The overflow guard -/

/-- The cursor of a state of the invariant lies within the buffer in RUN (R33, R113). -/
theorem State.Inv.idx_lt_bufSize (h : s.Inv) (hp : s.phase = .run) : s.idx.toNat < s.cfg.bufSize := by
  obtain ⟨-, -, hbuf, -⟩ := h.legal
  exact Nat.lt_of_lt_of_le (h.idx_lt hp) hbuf

theorem State.Records.countP_isOverflowDrop {events : List Event} (h : s.Records t events) (hs : s.Inv) :
    events.countP Event.isOverflowDrop = 0 := by
  cases h with
  | nothing => rfl
  | other _ hguard => simp [hguard]
  | guard hp _ hi => exact absurd hi (Nat.not_le.mpr (hs.idx_lt_bufSize hp))
  | answer => rfl
  | readAnswer => rfl

/-- Settles O17: the guard is the first arm of `parseCollect`, and from a state of the invariant no step takes it. -/
theorem overflowGuardIsDead : Obligations.OverflowGuardIsDead := by
  constructor
  · intro s u b rx hn hp hs hi hpop
    rw [step_of_engine_run hn hp, engineByte_of_pop hpop, parseByte_of_started (s := u.setRx rx) hs]
    exact parseCollect_of_overflow (s := u.setRx rx) hi
  · intro s t hs h
    obtain ⟨events, htrace, hevents⟩ := step_growsTrace h
    rw [htrace, List.countP_append, hevents.countP_isOverflowDrop hs, Nat.add_zero]

/-! ### The paths back to IDLE -/

@[simp] theorem appendByte_started (b : Byte) (s : State) : (appendByte b s).started = s.started := rfl

/-- A byte that returns the cursor to IDLE is the 18th of a frame that the validator rejects. -/
theorem engineByte_toIdle (h : s.Inv) (hp : s.phase = .run) (ht : engineByte s = .next t)
    (hs : s.started = true) (hs' : t.started = false) :
    t.idx = 0#8 ∧ ∃ b rx cls, (18 ≤ s.cfg.bufSize ∧ s.idx = 17#8 ∧ s.rx.pop s.cfg.rxSlots = some (b, rx)) ∧
      validate s.cfg (s.buf.set 17 b) = .invalid cls := by
  have hkept (hkeep : t.started = s.started) : False := by simp [hkeep, hs] at hs'
  rcases engineByte_cases s with
    ⟨-, e⟩ | ⟨b, rx, hpop, ⟨hidle, -⟩ | ⟨-, hi, -⟩ | ⟨-, -, -, e⟩ | ⟨-, hbuf, hi, e⟩⟩
  · cases e.symm.trans ht
    exact (hkept rfl).elim
  · simp [hs] at hidle
  · exact absurd hi (Nat.not_le.mpr (h.idx_lt_bufSize hp))
  · cases e.symm.trans ht
    exact (hkept rfl).elim
  · obtain ⟨-, ⟨cls, hinvalid, rfl⟩ | ⟨-, -, hstarted, -⟩⟩ := complete_frame (e.symm.trans ht)
    · exact ⟨rfl, b, rx, cls, ⟨hbuf, hi, hpop⟩, hinvalid⟩
    · exact (hkept hstarted).elim

theorem nextEmit_toIdle {k : Fin 18} (hs : s.started = true) (hs' : (nextEmit k s).started = false) :
    (nextEmit k s).idx = 0#8 ∧ k = 17 := by
  rw [nextEmit_eq] at hs' ⊢
  split at hs'
  next hk => exact ⟨by rw [if_pos hk]; rfl, Fin.ext hk⟩
  next => simp [hs] at hs'

/-- An offered byte that returns the cursor to IDLE is the last of its response, or ends it under AbortRest. -/
theorem engineEmit_toIdle {k : Fin 18} (hs : s.started = true) (hs' : (engineEmit k s).started = false) :
    (engineEmit k s).idx = 0#8 ∧ (k = 17 ∨ s.cfg.txFullPolicy = .abortRest) := by
  rcases engineEmit_cases k s with ⟨tx, -, e⟩ | ⟨-, -, e⟩ | ⟨-, habort, e⟩ <;> rw [e] at hs' ⊢
  · obtain ⟨hidx, hk⟩ := nextEmit_toIdle (s := s.setTx tx) hs hs'
    exact ⟨hidx, .inl hk⟩
  · obtain ⟨hidx, hk⟩ := nextEmit_toIdle (s := s.record _) hs hs'
    exact ⟨hidx, .inl hk⟩
  · exact ⟨rfl, .inr habort⟩

/-- Settles O22: a turn of the link keeps the cursor, and the engine's returns it to IDLE by a drop or at the end of a
response. -/
theorem cursorReturnsToIdleOnThreePaths : Obligations.CursorReturnsToIdleOnThreePaths := by
  intro s u t turn hinv hn ht hs hs'
  obtain ⟨hcfg, -, -, hstarted, -, hphase, -⟩ := nextTurn_fields hn
  have hu : u.started = true := hstarted.trans hs
  have hmoved : t.started ≠ u.started := by simp [hu, hs']
  rw [step_of_turn hn] at ht
  cases turn with
  | linkPush b => exact absurd (takeTurn_link_keeps rfl ht).started hmoved
  | linkPop => exact absurd (takeTurn_link_keeps rfl ht).started hmoved
  | blockReset =>
    cases ht
    obtain ⟨-, ⟨-, hidx⟩, -⟩ := blockReset_fields u
    exact ⟨hidx, .inl rfl⟩
  | engine =>
    have ht : engineTurn u = .next t := ht
    cases hp : u.phase with
    | run =>
      rw [engineTurn_run hp] at ht
      obtain ⟨hidx, b, rx, cls, ⟨hbuf, hi, hpop⟩, hinvalid⟩ :=
        engineByte_toIdle (nextTurn_inv hinv hn) hp ht hu hs'
      exact ⟨hidx, .inr (.inl ⟨b, rx, cls, ⟨hn, hp, hu, hi, hbuf, hpop⟩, hinvalid⟩)⟩
    | emit k =>
      rw [engineTurn_emit hp] at ht
      cases ht
      obtain ⟨hidx, hend⟩ := engineEmit_toIdle hu hs'
      rw [hcfg] at hend
      exact ⟨hidx, .inr (.inr ⟨k, rfl, hphase.symm.trans hp, hend⟩)⟩

end Sys2Proof.Machine
end

section
/-! SUPPORT. The frame validator (43_validator.md R120 to R125): what its checks find, in order, and so the exact
condition for each verdict. -/

namespace Sys2Proof.Machine

variable {c : Config} {f : Frame}

/-- The checks in order: a verdict other than the first says that the checks before it passed (R120). -/
theorem validate_cases (c : Config) (f : Frame) :
    ((regSof f ≠ c.startMarker ∨ regEof f ≠ c.endMarker) ∧ validate c f = .invalid .framingMarker) ∨
    (regSof f = c.startMarker ∧ regEof f = c.endMarker ∧
      (Config.dataCap < (regLen f).toNat ∧ validate c f = .invalid .framingLength ∨
        (regLen f).toNat ≤ Config.dataCap ∧
          (frameCrc f ≠ regCsum f ∧ validate c f = .invalid .integrity ∨
            frameCrc f = regCsum f ∧ validate c f = .valid))) := by
  by_cases hmark : regSof f ≠ c.startMarker ∨ regEof f ≠ c.endMarker
  · exact .inl ⟨hmark, if_pos hmark⟩
  have hsof : regSof f = c.startMarker := Decidable.of_not_not fun h => hmark (.inl h)
  have heof : regEof f = c.endMarker := Decidable.of_not_not fun h => hmark (.inr h)
  refine .inr ⟨hsof, heof, ?_⟩
  by_cases hlen : Config.dataCap < (regLen f).toNat
  · exact .inl ⟨hlen, (if_neg hmark).trans (if_pos hlen)⟩
  refine .inr ⟨Nat.not_lt.mp hlen, ?_⟩
  by_cases hcrc : frameCrc f = regCsum f
  · exact .inr ⟨hcrc, validate_eq_valid_iff.mpr ⟨hsof, heof, Nat.not_lt.mp hlen, hcrc⟩⟩
  · exact .inl ⟨hcrc, (if_neg hmark).trans ((if_neg hlen).trans (if_pos hcrc))⟩

/-- A frame with a wrong marker fails every condition that asks for both. -/
theorem not_markers_and (hmark : regSof f ≠ c.startMarker ∨ regEof f ≠ c.endMarker) (p : Prop) :
    ¬(regSof f = c.startMarker ∧ regEof f = c.endMarker ∧ p) :=
  fun ⟨hsof, heof, _⟩ => hmark.elim (absurd hsof) (absurd heof)

theorem validate_eq_framingMarker_iff :
    validate c f = .invalid .framingMarker ↔ (regSof f ≠ c.startMarker ∨ regEof f ≠ c.endMarker) := by
  rcases validate_cases c f with ⟨hmark, e⟩ | ⟨hsof, heof, ⟨-, e⟩ | ⟨-, ⟨-, e⟩ | ⟨-, e⟩⟩⟩ <;> rw [e]
  · exact iff_of_true rfl hmark
  all_goals exact iff_of_false nofun fun hmark => hmark.elim (absurd hsof) (absurd heof)

theorem validate_eq_framingLength_iff :
    validate c f = .invalid .framingLength ↔
      (regSof f = c.startMarker ∧ regEof f = c.endMarker ∧ Config.dataCap < (regLen f).toNat) := by
  rcases validate_cases c f with ⟨hmark, e⟩ | ⟨hsof, heof, ⟨hlen, e⟩ | ⟨hlen, ⟨-, e⟩ | ⟨-, e⟩⟩⟩ <;> rw [e]
  · exact iff_of_false nofun (not_markers_and hmark _)
  · exact iff_of_true rfl ⟨hsof, heof, hlen⟩
  all_goals exact iff_of_false nofun fun ⟨_, _, hlong⟩ => absurd hlen (Nat.not_le.mpr hlong)

theorem validate_eq_integrity_iff :
    validate c f = .invalid .integrity ↔
      (regSof f = c.startMarker ∧ regEof f = c.endMarker ∧ (regLen f).toNat ≤ Config.dataCap ∧
        frameCrc f ≠ regCsum f) := by
  rcases validate_cases c f with ⟨hmark, e⟩ | ⟨hsof, heof, ⟨hlen, e⟩ | ⟨hlen, ⟨hcrc, e⟩ | ⟨hcrc, e⟩⟩⟩ <;> rw [e]
  · exact iff_of_false nofun (not_markers_and hmark _)
  · exact iff_of_false nofun fun ⟨_, _, hshort, _⟩ => absurd hlen (Nat.not_lt.mpr hshort)
  · exact iff_of_true rfl ⟨hsof, heof, hlen, hcrc⟩
  · exact iff_of_false nofun fun ⟨_, _, _, hne⟩ => hne hcrc

/-- Settles O23: the registers the checks read are these bytes, LEN and CSUM little-endian. -/
theorem firstFailingCheckNamesTheClass : Obligations.FirstFailingCheckNamesTheClass := by
  intro c f
  rw [← le16_toNat]
  exact ⟨validate_eq_framingMarker_iff, validate_eq_framingLength_iff, validate_eq_integrity_iff,
    validate_eq_valid_iff⟩

/-- The frame of a command with LEN above DATA_CAP passes the marker check and fails the length check (R122). -/
theorem validate_frameOf_of_lt {cmd : Byte} {fs : Fields} (h : Config.dataCap < fs.len.toNat) :
    validate c (frameOf c cmd fs) = .invalid .framingLength := by
  obtain ⟨hsof, heof, -, hfields, -⟩ := frameOf_registers c cmd fs
  have hlen : regLen (frameOf c cmd fs) = fs.len := congrArg Fields.len hfields
  exact validate_eq_framingLength_iff.mpr ⟨hsof, heof, hlen ▸ h⟩

/-- Settles O24: the frame built has its markers and its checksum right, which leaves the length check to decide. -/
theorem validatorIgnoresOtherFields : Obligations.ValidatorIgnoresOtherFields := by
  intro c cmd fs
  split
  case isTrue hlen => exact validate_frameOf (decide_eq_true hlen)
  case isFalse hlen => exact validate_frameOf_of_lt (Nat.not_le.mp hlen)

end Sys2Proof.Machine
end

section
/-! SUPPORT. The commands (44_dispatcher.md R130 to R139, R143): each is one response, READ_MEM's after one read whose
answer decides the outcome and what DATA holds; and so is the answer to an unknown command. -/

namespace Sys2Proof.Machine

variable {s : State} {f : Fields}

/-! ### The spec's frames -/

/-- Settles O3: each frame's bytes are evaluated by the decoder. -/
theorem decodeOfSpecFrames : Obligations.DecodeOfSpecFrames := by
  refine ⟨?_, ?_, ?_, ?_, ?_, ?_⟩ <;> decide

/-! ### The flags -/

theorem answeredFlag_ack (k : FlagBits) (ok : Bool) (v : Byte) : answeredFlag k ok v k.ack = true :=
  if_pos rfl

theorem answeredFlag_statusError {k : FlagBits} (h : k.ack ≠ k.statusError) (ok : Bool) (v : Byte) :
    answeredFlag k ok v k.statusError = !ok :=
  (if_neg h.symm).trans (if_pos rfl)

theorem answeredFlag_other {k : FlagBits} {n : Fin 8} (hack : n ≠ k.ack) (herr : n ≠ k.statusError) (ok : Bool)
    (v : Byte) : answeredFlag k ok v n = v.getLsbD n.val :=
  (if_neg hack).trans (if_neg herr)

/-- Settles O30: the three clauses are the three arms of `answeredFlag`. -/
theorem responseFlagsBitByBit : Obligations.ResponseFlagsBitByBit := by
  intro k ok v hne
  simp only [responseFlags_getLsbD k ok v _ hne]
  exact ⟨answeredFlag_ack k ok v, answeredFlag_statusError hne ok v,
    fun n hack herr => answeredFlag_other hack herr ok v⟩

/-! ### The commands that read nothing -/

@[simp] theorem State.respond_memCalls (s : State) (ok : Bool) : (s.respond ok).memCalls = s.memCalls := rfl
@[simp] theorem State.respond_draws (s : State) (ok : Bool) : (s.respond ok).draws = s.draws := rfl

theorem exec_ping (f : Fields) (s : State) : exec (.ping f) s = .next (s.respond true) := rfl
theorem exec_writeMem (f : Fields) (s : State) : exec (.writeMem f) s = .next (s.respond false) := rfl
theorem exec_readReg (f : Fields) (s : State) : exec (.readReg f) s = .next (s.respond false) := rfl
theorem exec_writeReg (f : Fields) (s : State) : exec (.writeReg f) s = .next (s.respond false) := rfl
theorem exec_reset (f : Fields) (s : State) : exec (.reset f) s = .next (s.respond false) := rfl

/-- An outcome that forms the response at once answers the frame and does not call the Memory Access port. -/
theorem exists_answered {o : Host.Outcome State Fault Refusal} {ok : Bool} (hl : s.cfg.Legal)
    (h : o = .next (s.respond ok)) :
    ∃ t, o = .next t ∧ s.Answered ok (regData s.buf) [.response (regCmd s.buf) ok] t ∧
      t.memCalls = s.memCalls ∧ t.draws = s.draws :=
  ⟨s.respond ok, h, respond_answered_self ok hl, s.respond_memCalls ok, s.respond_draws ok⟩

/-- Settles O25: PING is a success response formed at once. -/
theorem pingAnswersSuccess : Obligations.PingAnswersSuccess :=
  fun f s hl => exists_answered hl (exec_ping f s)

/-- Settles O27: WRITE_MEM is a failure response formed at once. -/
theorem writeMemAnswersFailure : Obligations.WriteMemAnswersFailure :=
  fun f s hl => exists_answered hl (exec_writeMem f s)

/-- Settles O28: each of the two is a failure response formed at once. -/
theorem registerCommandsAnswerFailure : Obligations.RegisterCommandsAnswerFailure := by
  rintro f s i (rfl | rfl) hl
  · exact exists_answered hl (exec_readReg f s)
  · exact exists_answered hl (exec_writeReg f s)

/-- Settles O29: RESET is a failure response formed at once, and forming one touches no channel. -/
theorem resetCommandResetsNothing : Obligations.ResetCommandResetsNothing := by
  intro f s hl
  obtain ⟨t, hexec, hanswered, hport⟩ := exists_answered hl (exec_reset f s)
  exact ⟨t, hexec, hanswered, hanswered.rx, hanswered.tx, hport⟩

/-! ### READ_MEM -/

theorem exec_readMem (f : Fields) (s : State) :
    exec (.readMem f) s = .next ((s.call (.read f.zone f.addr f.len)).draw.readDone f.zone f.addr f.len
      (memAnswer s.draws f.zone f.addr f.len)) := rfl

section
variable {draw : Nat} {zone : Byte} {addr : Word} {n : Half}

theorem memAnswer_of_some {r : Vector Byte n.toNat} (h : Config.backendAnswer draw zone addr n = some r) :
    memAnswer draw zone addr n = .ok r.toList := by
  simp only [memAnswer, h]

theorem memAnswer_of_none (h : Config.backendAnswer draw zone addr n = none) :
    memAnswer draw zone addr n = .err := by
  simp only [memAnswer, h]

@[simp] theorem State.readDone_memCalls (answer : MemAnswer) :
    (s.readDone zone addr n answer).memCalls = s.memCalls := by
  cases answer <;> rfl

@[simp] theorem State.readDone_draws (answer : MemAnswer) :
    (s.readDone zone addr n answer).draws = s.draws := by
  cases answer <;> rfl

end

/-- DATA after the copy of R132: the bytes copied, and beyond them what DATA held. -/
theorem regData_copyData (bytes : List Byte) (g : Frame) (i : Fin 4) :
    regData (copyData 0 bytes g) i = if h : i.val < bytes.length then bytes[i.val] else regData g i := by
  have hi := i.isLt
  unfold regData
  rw [copyData_getElem]
  by_cases h : i.val < bytes.length
  · rw [dif_pos ⟨by omega, by omega, by omega⟩, dif_pos h]
    simp
  · rw [dif_neg (by omega), dif_neg h]

/-- What READ_MEM leaves after a read the backend answers with bytes (R132). -/
theorem readDone_ok_answered (hl : s.cfg.Legal) (bytes : List Byte) :
    s.Answered true (regData (copyData 0 bytes s.buf))
      [.memReadEv f.zone f.addr f.len (.ok bytes), .response (regCmd s.buf) true]
      ((s.call (.read f.zone f.addr f.len)).draw.readDone f.zone f.addr f.len (.ok bytes)) := by
  refine respond_answered (events := [_]) true hl (fun j hj hdata => ?_) rfl
  rw [copyData_getElem, dif_neg (by omega)]

/-- What READ_MEM leaves after a read the backend refuses (R132). -/
theorem readDone_err_answered (hl : s.cfg.Legal) :
    s.Answered false (regData s.buf)
      [.memReadEv f.zone f.addr f.len .err, .response (regCmd s.buf) false]
      ((s.call (.read f.zone f.addr f.len)).draw.readDone f.zone f.addr f.len .err) :=
  respond_answered (s' := (s.call (.read f.zone f.addr f.len)).draw.record _) (events := [_]) false hl
    (fun _ _ _ => rfl) rfl

/-- Settles O26: the read is one call, and its answer selects how the response is formed. -/
theorem readMemAnswersWhatTheBackendSays : Obligations.ReadMemAnswersWhatTheBackendSays := by
  intro f s hl
  refine ⟨_, exec_readMem f s, State.readDone_memCalls _, State.readDone_draws _, ?_⟩
  cases h : Config.backendAnswer s.draws f.zone f.addr f.len with
  | some r =>
    have hdata : regData (copyData 0 r.toList s.buf) =
        fun i => if h : i.val < f.len.toNat then r[i.val] else regData s.buf i := by
      funext i
      simp [regData_copyData]
    have hanswered := readDone_ok_answered (f := f) hl r.toList
    rw [hdata] at hanswered
    rw [memAnswer_of_some h]
    exact hanswered
  | none =>
    rw [memAnswer_of_none h]
    exact readDone_err_answered hl

/-! ### A command that is none of the six -/

theorem dispatch_of_none (h : instrOf s.cfg.cmdCode s.buf = none) : dispatch s = .next (s.respond false) := by
  simp only [dispatch, h]
  rfl

/-- Settles O20: a valid frame of an unknown command is dispatched to a failure response formed at once. -/
theorem unknownCommandIsAnswered : Obligations.UnknownCommandIsAnswered := by
  intro s u b rx cmd hcompleting hl hdec
  rw [decode_toList] at hdec
  obtain ⟨hvalid, hnone, rfl⟩ := decodeFrame_eq_unknown hdec
  have hstep : step s = .next ((u.collected b rx).respond false) :=
    calc step s
        = complete (u.collected b rx) := step_of_completing hcompleting
      _ = dispatch (u.collected b rx) := complete_of_valid hvalid
      _ = .next ((u.collected b rx).respond false) := dispatch_of_none hnone
  exact exists_answered (s := u.collected b rx) hl hstep

end Sys2Proof.Machine
end

section
/-! SUPPORT. Queuing the response (44_dispatcher.md R140 to R142, R145): what one offer of the engine leaves, and the
two runs a response is made of, one while TX has room and one over a full TX. -/

namespace Sys2Proof.Machine

variable {s t u : State} {k : Fin 18}

/-! ### What queuing leaves alone -/

/-- What no offer of a response byte touches: all but TX, the cursor, the phase, the trace and the schedule. -/
structure State.EmitKeeps (s t : State) : Prop where
  cfg       : t.cfg = s.cfg
  buf       : t.buf = s.buf
  headroom  : t.headroom = s.headroom
  rx        : t.rx = s.rx
  linkReply : t.linkReply = s.linkReply
  draws     : t.draws = s.draws
  memCalls  : t.memCalls = s.memCalls

theorem State.EmitKeeps.refl (s : State) : s.EmitKeeps s :=
  ⟨rfl, rfl, rfl, rfl, rfl, rfl, rfl⟩

theorem State.EmitKeeps.trans (h : s.EmitKeeps t) (h' : t.EmitKeeps u) : s.EmitKeeps u :=
  ⟨h'.cfg.trans h.cfg, h'.buf.trans h.buf, h'.headroom.trans h.headroom, h'.rx.trans h.rx,
    h'.linkReply.trans h.linkReply, h'.draws.trans h.draws, h'.memCalls.trans h.memCalls⟩

theorem State.EmitKeeps.nextEmit (h : s.EmitKeeps t) : s.EmitKeeps (nextEmit k t) := by
  obtain ⟨hcfg, hbuf, hhead, hrx, hreply, hdraws, hcalls⟩ := h
  rw [nextEmit_eq]
  split <;> exact ⟨hcfg, hbuf, hhead, hrx, hreply, hdraws, hcalls⟩

theorem engineEmit_emitKeeps (k : Fin 18) (s : State) : s.EmitKeeps (engineEmit k s) := by
  rcases engineEmit_cases k s with ⟨tx, -, e⟩ | ⟨-, -, e⟩ | ⟨-, -, e⟩ <;> rw [e]
  · exact State.EmitKeeps.nextEmit ⟨rfl, rfl, rfl, rfl, rfl, rfl, rfl⟩
  · exact State.EmitKeeps.nextEmit ⟨rfl, rfl, rfl, rfl, rfl, rfl, rfl⟩
  · exact ⟨rfl, rfl, rfl, rfl, rfl, rfl, rfl⟩

@[simp] theorem nextEmit_turns (k : Fin 18) (s : State) : (nextEmit k s).turns = s.turns := by
  rw [nextEmit_eq]
  split <;> rfl

@[simp] theorem engineEmit_turns (k : Fin 18) (s : State) : (engineEmit k s).turns = s.turns := by
  rcases engineEmit_cases k s with ⟨tx, -, e⟩ | ⟨-, -, e⟩ | ⟨-, -, e⟩ <;> rw [e]
  · exact nextEmit_turns k _
  · exact nextEmit_turns k _
  · rfl

/-! ### One offer -/

theorem engineEmit_of_push {tx : Channel} (h : s.tx.push s.cfg.txSlots s.buf[k] = some tx) :
    engineEmit k s = nextEmit k (s.setTx tx) := by
  simp only [engineEmit, h]

theorem engineEmit_of_full_dropContinue (h : s.tx.push s.cfg.txSlots s.buf[k] = none)
    (hp : s.cfg.txFullPolicy = .dropContinue) :
    engineEmit k s = nextEmit k (s.record (.txOverflow k s.buf[k])) := by
  simp only [engineEmit, h, hp]

theorem engineEmit_of_full_abortRest (h : s.tx.push s.cfg.txSlots s.buf[k] = none)
    (hp : s.cfg.txFullPolicy = .abortRest) :
    engineEmit k s = (s.record (.txOverflow k s.buf[k])).endResponse := by
  simp only [engineEmit, h, hp]

theorem step_of_engine_emit (hn : s.nextTurn = (some .engine, u)) (hp : u.phase = .emit k) :
    step s = .next (engineEmit k u) :=
  (step_of_turn hn).trans (engineTurn_emit hp)

theorem step_engine_emit {rest : List Turn} (hturns : s.turns = .engine :: rest) (hp : s.phase = .emit k) :
    step s = .next (engineEmit k (s.setTurns rest)) :=
  (step_of_turns hturns).trans (engineTurn_emit (s := s.setTurns rest) hp)

/-- After byte k was offered: the response has ended, or byte k + 1 is next and the cursor stays (R140, R141). -/
theorem nextEmit_sequencing (k : Fin 18) (s : State) :
    if k.val = 17 then (nextEmit k s).phase = .run ∧ (nextEmit k s).Idle
    else (nextEmit k s).phase = .emit (k + 1) ∧ (nextEmit k s).started = s.started ∧
      (nextEmit k s).idx = s.idx := by
  rw [nextEmit_eq]
  split
  · exact ⟨rfl, rfl, rfl⟩
  · exact ⟨rfl, rfl, rfl⟩

/-- What an offer does to TX and the trace: the byte is queued, or lost and recorded (R140). -/
theorem engineEmit_offer (k : Fin 18) (s : State) :
    match s.tx.push s.cfg.txSlots s.buf[k] with
    | some tx => (engineEmit k s).tx = tx ∧ (engineEmit k s).trace = s.trace
    | none => (engineEmit k s).tx = s.tx ∧ (engineEmit k s).trace = s.trace ++ [.txOverflow k s.buf[k]] := by
  rcases engineEmit_cases k s with ⟨tx, hpush, e⟩ | ⟨hpush, -, e⟩ | ⟨hpush, -, e⟩ <;> rw [e, hpush]
  · exact ⟨(nextEmit_keepsPorts k _).tx, nextEmit_trace k _⟩
  · exact ⟨(nextEmit_keepsPorts k _).tx, nextEmit_trace k _⟩
  · exact ⟨rfl, rfl⟩

/-- What an offer does to the phase and the cursor (R140, R141). -/
theorem engineEmit_sequencing (k : Fin 18) (s : State) :
    if k.val = 17 ∨ (s.tx.push s.cfg.txSlots s.buf[k] = none ∧ s.cfg.txFullPolicy = .abortRest) then
      (engineEmit k s).phase = .run ∧ (engineEmit k s).Idle
    else (engineEmit k s).phase = .emit (k + 1) ∧ (engineEmit k s).started = s.started ∧
      (engineEmit k s).idx = s.idx := by
  rcases engineEmit_cases k s with ⟨tx, hpush, e⟩ | ⟨-, hpolicy, e⟩ | ⟨hpush, hpolicy, e⟩ <;> rw [e]
  · simp only [hpush, reduceCtorEq, false_and, or_false]
    exact nextEmit_sequencing k (s.setTx tx)
  · simp only [hpolicy, reduceCtorEq, and_false, or_false]
    exact nextEmit_sequencing k (s.record _)
  · rw [if_pos (.inr ⟨hpush, hpolicy⟩)]
    exact ⟨rfl, rfl, rfl⟩

/-- Settles O34: in EMIT(k) the engine's step is the offer of byte k. -/
theorem emitOffersOneByte : Obligations.EmitOffersOneByte := by
  intro s u k hn hp
  obtain ⟨hcfg, hbuf, hhead, hrx, hreply, hdraws, hcalls⟩ := engineEmit_emitKeeps k u
  exact ⟨engineEmit k u, step_of_engine_emit hn hp, engineEmit_offer k u, engineEmit_sequencing k u, hcfg, hbuf,
    hhead, hrx, hreply, engineEmit_turns k u, hdraws, hcalls⟩

/-! ### Where a response stands -/

/-- Byte m of the response is offered next; at 18 the response has ended, in RUN and IDLE. -/
def State.AtByte (s : State) (m : Nat) : Prop :=
  if h : m < 18 then s.phase = .emit ⟨m, h⟩ else s.phase = .run ∧ s.Idle

theorem atByte_iff_emit {m : Nat} (h : m < 18) : s.AtByte m ↔ s.phase = .emit ⟨m, h⟩ := by
  simp only [State.AtByte, dif_pos h]

theorem atByte_eighteen_iff : s.AtByte 18 ↔ s.phase = .run ∧ s.Idle :=
  Iff.rfl

theorem nextEmit_atByte (k : Fin 18) (s : State) : (nextEmit k s).AtByte (k.val + 1) := by
  unfold nextEmit
  split
  next h => exact (atByte_iff_emit h).mpr rfl
  next h =>
    have hlast : k.val + 1 = 18 := by omega
    rw [hlast]
    exact atByte_eighteen_iff.mpr ⟨rfl, rfl, rfl⟩

/-! ### The room in TX -/

theorem txRoom_eq_zero_iff (h : s.Inv) :
    s.txRoom = 0 ↔ s.tx.occupancy s.cfg.txSlots = s.cfg.txSlots - 1 := by
  have hle := Channel.occupancy_le_pred h.tx
  unfold State.txRoom
  omega

/-- Without room every push to TX is Full (R90, R92). -/
theorem push_of_txRoom_eq_zero (h : s.Inv) (hroom : s.txRoom = 0) (b : Byte) :
    s.tx.push s.cfg.txSlots b = none :=
  push_full ((Channel.occupancy_eq_pred_iff h.tx).mp ((txRoom_eq_zero_iff h).mp hroom))

/-- A push to TX takes one place of its room. -/
theorem txRoom_of_push {b : Byte} {tx : Channel} (h : s.Inv) (hp : s.tx.push s.cfg.txSlots b = some tx)
    (hcfg : t.cfg = s.cfg) (htx : t.tx = tx) : s.txRoom = t.txRoom + 1 := by
  have hocc := Channel.occupancy_push h.tx (txSlots_le h.legal) hp
  have hle := Channel.occupancy_le_pred (h.tx.push (txSlots_le h.legal) hp)
  unfold State.txRoom
  rw [hcfg, htx]
  omega

/-! ### Runs -/

theorem run_one (h : step s = .next t) : core.run 1 s = .next t :=
  run_succ h

theorem run_add {i j : Nat} (h : core.run i s = .next t) : core.run (i + j) s = core.run j t := by
  induction i generalizing s with
  | zero => cases h; rw [Nat.zero_add]
  | succ i ih =>
    obtain ⟨v, hstep⟩ := everyStateHasANextState s
    rw [run_succ hstep] at h
    rw [Nat.succ_add, run_succ hstep, ih h]

theorem run_inv {i : Nat} (h : s.Inv) (hrun : core.run i s = .next t) : t.Inv := by
  induction i generalizing s with
  | zero => cases hrun; exact h
  | succ i ih =>
    obtain ⟨v, hstep⟩ := everyStateHasANextState s
    rw [run_succ hstep] at hrun
    exact ih (step_inv h hstep) hrun

/-! ### Offers that TX takes -/

/-- From s to t the engine queued j bytes of the response, from byte m on, and did nothing else. -/
structure State.Queues (s : State) (m j : Nat) (t : State) : Prop where
  atByte   : t.AtByte (m + j)
  contents : t.tx.contents s.cfg.txSlots = s.tx.contents s.cfg.txSlots ++ (s.buf.toList.drop m).take j
  room     : s.txRoom = t.txRoom + j
  trace    : t.trace = s.trace
  keeps    : s.EmitKeeps t

theorem State.Queues.refl {m : Nat} (h : s.AtByte m) : s.Queues m 0 s :=
  ⟨h, by simp, rfl, rfl, .refl s⟩

theorem State.Queues.trans {m i j : Nat} (h : s.Queues m i t) (h' : t.Queues (m + i) j u) :
    s.Queues m (i + j) u := by
  obtain ⟨-, hcontents, hroom, htrace, hkeeps⟩ := h
  obtain ⟨hat, hcontents', hroom', htrace', hkeeps'⟩ := h'
  rw [hkeeps.cfg, hkeeps.buf] at hcontents'
  refine ⟨?_, ?_, by omega, htrace'.trans htrace, hkeeps.trans hkeeps'⟩
  · rwa [← Nat.add_assoc]
  · rw [hcontents', hcontents, List.append_assoc, List.take_add, List.drop_drop]

/-- An offer to a TX with room queues its byte. -/
theorem step_queues {rest : List Turn} {m : Nat} (h : s.Inv) (hm : m < 18) (hat : s.AtByte m)
    (hroom : 0 < s.txRoom) (hturns : s.turns = .engine :: rest) :
    ∃ t : State, step s = .next t ∧ t.turns = rest ∧ s.Queues m 1 t := by
  have hp : s.phase = .emit ⟨m, hm⟩ := (atByte_iff_emit hm).mp hat
  rcases Channel.push_cases h.tx (txSlots_le h.legal) s.buf[m] with ⟨hfull, -⟩ | ⟨-, tx, hpush, -, hcontents⟩
  · exact absurd ((txRoom_eq_zero_iff h).mpr hfull) (Nat.ne_of_gt hroom)
  · have htx : (nextEmit ⟨m, hm⟩ ((s.setTurns rest).setTx tx)).tx = tx := (nextEmit_keepsPorts _ _).tx
    refine ⟨nextEmit ⟨m, hm⟩ ((s.setTurns rest).setTx tx), ?_, nextEmit_turns _ _, nextEmit_atByte _ _, ?_,
      txRoom_of_push h hpush (nextEmit_cfg _ _) htx, nextEmit_trace _ _, ?_⟩
    · rw [step_engine_emit hturns hp, engineEmit_of_push (k := ⟨m, hm⟩) (s := s.setTurns rest) hpush]
    · rw [htx, hcontents, List.drop_eq_getElem_cons (by simpa using hm), List.take_succ_cons, List.take_zero,
        Vector.getElem_toList]
    · exact State.EmitKeeps.nextEmit ⟨rfl, rfl, rfl, rfl, rfl, rfl, rfl⟩

/-- While TX has room the bytes of the response are queued in order, one a turn (R140, R145). -/
theorem run_queues {rest : List Turn} {m j : Nat} (h : s.Inv) (hat : s.AtByte m) (hlast : m + j ≤ 18)
    (hroom : j ≤ s.txRoom) (hturns : s.turns = List.replicate j .engine ++ rest) :
    ∃ t : State, core.run j s = .next t ∧ t.turns = rest ∧ s.Queues m j t := by
  induction j generalizing s m with
  | zero => exact ⟨s, rfl, hturns, .refl hat⟩
  | succ j ih =>
    obtain ⟨v, hstep, hturns', hqueues⟩ := step_queues h (by omega) hat (by omega) hturns
    have hroom' := hqueues.room
    obtain ⟨t, hrun, hrest, hqueues'⟩ :=
      ih (step_inv h hstep) hqueues.atByte (by omega) (by omega) hturns'
    rw [Nat.add_comm j 1]
    exact ⟨t, (run_add (run_one hstep)).trans hrun, hrest, hqueues.trans hqueues'⟩

/-- Settles O35: with room for 18 bytes every offer of the response is taken. -/
theorem responseIsQueuedWholeInOrder : Obligations.ResponseIsQueuedWholeInOrder := by
  intro s rest h hp hroom hturns
  have hroom' : 18 ≤ s.txRoom := by unfold State.txRoom; omega
  obtain ⟨t, hrun, hrest, hat, hcontents, -, htrace, hkeeps⟩ :=
    run_queues (m := 0) h ((atByte_iff_emit (by decide)).mpr hp) (Nat.le_refl 18) hroom' hturns
  obtain ⟨hphase, hidle⟩ := atByte_eighteen_iff.mp hat
  rw [List.drop_zero, List.take_of_length_le (by simp)] at hcontents
  exact ⟨t, hrun, hcontents, hphase, hidle, hkeeps.rx, hkeeps.buf, htrace, hrest⟩

/-! ### Offers that meet a full TX -/

theorem lost_congr (hbuf : t.buf = s.buf) (ks : List (Fin 18)) : t.lost ks = s.lost ks := by
  simp only [State.lost, hbuf]

/-- From s to t the engine lost j bytes of the response, from byte m on, and did nothing else. -/
structure State.Loses (s : State) (m j : Nat) (t : State) : Prop where
  atByte : t.AtByte (m + j)
  tx     : t.tx = s.tx
  trace  : t.trace = s.trace ++ s.lost (((List.finRange 18).drop m).take j)
  keeps  : s.EmitKeeps t

theorem State.Loses.refl {m : Nat} (h : s.AtByte m) : s.Loses m 0 s :=
  ⟨h, rfl, by simp [State.lost], .refl s⟩

theorem State.Loses.trans {m i j : Nat} (h : s.Loses m i t) (h' : t.Loses (m + i) j u) :
    s.Loses m (i + j) u := by
  obtain ⟨-, htx, htrace, hkeeps⟩ := h
  obtain ⟨hat, htx', htrace', hkeeps'⟩ := h'
  rw [lost_congr hkeeps.buf] at htrace'
  refine ⟨?_, htx'.trans htx, ?_, hkeeps.trans hkeeps'⟩
  · rwa [← Nat.add_assoc]
  · rw [htrace', htrace, List.append_assoc, List.take_add, List.drop_drop]
    simp only [State.lost, List.map_append]

/-- Under DropContinue an offer to a full TX loses its byte, and the response goes on (R140). -/
theorem step_loses {rest : List Turn} {m : Nat} (hm : m < 18) (hat : s.AtByte m)
    (hpolicy : s.cfg.txFullPolicy = .dropContinue) (hfull : ∀ b, s.tx.push s.cfg.txSlots b = none)
    (hturns : s.turns = .engine :: rest) : ∃ t : State, step s = .next t ∧ t.turns = rest ∧ s.Loses m 1 t := by
  have hp : s.phase = .emit ⟨m, hm⟩ := (atByte_iff_emit hm).mp hat
  refine ⟨nextEmit ⟨m, hm⟩ ((s.setTurns rest).record (.txOverflow ⟨m, hm⟩ s.buf[m])), ?_, nextEmit_turns _ _,
    nextEmit_atByte _ _, (nextEmit_keepsPorts _ _).tx, ?_, ?_⟩
  · rw [step_engine_emit hturns hp, engineEmit_of_full_dropContinue (s := s.setTurns rest) (hfull _) hpolicy]
    rfl
  · rw [nextEmit_trace, List.drop_eq_getElem_cons (by simpa using hm), List.take_succ_cons, List.take_zero,
      List.getElem_finRange]
    rfl
  · exact State.EmitKeeps.nextEmit ⟨rfl, rfl, rfl, rfl, rfl, rfl, rfl⟩

/-- Under DropContinue the bytes of the response are lost in order, one a turn, while TX is full. -/
theorem run_loses {rest : List Turn} {m j : Nat} (hat : s.AtByte m) (hlast : m + j ≤ 18)
    (hpolicy : s.cfg.txFullPolicy = .dropContinue) (hfull : ∀ b, s.tx.push s.cfg.txSlots b = none)
    (hturns : s.turns = List.replicate j .engine ++ rest) :
    ∃ t : State, core.run j s = .next t ∧ t.turns = rest ∧ s.Loses m j t := by
  induction j generalizing s m with
  | zero => exact ⟨s, rfl, hturns, .refl hat⟩
  | succ j ih =>
    obtain ⟨v, hstep, hturns', hloses⟩ := step_loses (by omega) hat hpolicy hfull hturns
    have hcfg := hloses.keeps.cfg
    obtain ⟨t, hrun, hrest, hloses'⟩ :=
      ih hloses.atByte (by omega) (by rw [hcfg, hpolicy]) (by rw [hcfg, hloses.tx]; exact hfull) hturns'
    rw [Nat.add_comm j 1]
    exact ⟨t, (run_add (j := j) (run_one hstep)).trans hrun, hrest, hloses.trans hloses'⟩

/-- Settles O36: the bytes there is room for are queued, and the full TX then loses each of the others. -/
theorem dropContinueOffersEveryByteOnce : Obligations.DropContinueOffersEveryByteOnce := by
  intro s rest h hp hpolicy hturns
  have hat : s.AtByte 0 := (atByte_iff_emit (by decide)).mpr hp
  obtain hroom | hroom := Nat.le_total 18 s.txRoom
  · obtain ⟨t, hrun, hrest, hqueues⟩ := run_queues h hat (Nat.le_refl 18) hroom hturns
    obtain ⟨hphase, hidle⟩ := atByte_eighteen_iff.mp hqueues.atByte
    refine ⟨t, hrun, hphase, hidle, hrest, hqueues.contents.trans ?_, hqueues.trace.trans ?_⟩
    · rw [List.drop_zero, List.take_of_length_le (by simp), List.take_of_length_le (by simpa using hroom)]
    · rw [List.drop_of_length_le (by simpa using hroom)]
      simp [State.lost]
  · obtain ⟨j, hj⟩ := Nat.exists_eq_add_of_le hroom
    rw [hj, ← List.replicate_append_replicate, List.append_assoc] at hturns
    obtain ⟨v, hrun, hturns', hqueues⟩ := run_queues h hat (by omega) (Nat.le_refl _) hturns
    have hroom' : v.txRoom = 0 := by have := hqueues.room; omega
    obtain ⟨t, hrun', hrest, hloses⟩ := run_loses hqueues.atByte (by omega)
      (by rw [hqueues.keeps.cfg, hpolicy]) (push_of_txRoom_eq_zero (run_inv h hrun) hroom') hturns'
    have hend : t.AtByte 18 := by rw [hj, ← Nat.zero_add s.txRoom]; exact hloses.atByte
    obtain ⟨hphase, hidle⟩ := atByte_eighteen_iff.mp hend
    refine ⟨t, ?_, hphase, hidle, hrest, ?_, hloses.trace.trans ?_⟩
    · rw [hj, run_add hrun, hrun']
    · rw [hloses.tx, hqueues.contents, List.drop_zero]
    · rw [hqueues.trace, lost_congr hqueues.keeps.buf, Nat.zero_add, List.take_of_length_le (by simp; omega)]

/-- Settles O37: the bytes there is room for are queued, and the next offer ends the response. -/
theorem abortRestEndsAtFirstLostByte : Obligations.AbortRestEndsAtFirstLostByte := by
  intro s k rest h hp hpolicy hroom hturns
  rw [List.replicate_succ', List.append_assoc] at hturns
  obtain ⟨v, hrun, hturns', hat, hcontents, hroom', htrace, hkeeps⟩ :=
    run_queues (m := 0) h ((atByte_iff_emit (by decide)).mpr hp) (by omega) (Nat.le_of_eq hroom.symm) hturns
  rw [Nat.zero_add] at hat
  have hfull : v.tx.push v.cfg.txSlots v.buf[k] = none :=
    push_of_txRoom_eq_zero (run_inv h hrun) (by omega) _
  have hstep : step v = .next ((v.setTurns rest).record (.txOverflow k v.buf[k])).endResponse := by
    rw [step_engine_emit hturns' ((atByte_iff_emit k.isLt).mp hat)]
    exact congrArg _ (engineEmit_of_full_abortRest (s := v.setTurns rest) hfull
      ((congrArg Config.txFullPolicy hkeeps.cfg).trans hpolicy))
  refine ⟨_, (run_add hrun).trans (run_one hstep), rfl, ⟨rfl, rfl⟩, rfl, hcontents, ?_⟩
  rw [← htrace, ← hkeeps.buf]
  rfl

end Sys2Proof.Machine
end


section
/-! SUPPORT. What the checksum catches (60_exceptions.md R163): a step of it is injective in the byte and in the
accumulator, so a change of one byte of the span never reaches the end unseen, and one of a stored checksum byte has no
counterpart in the span. -/

namespace Sys2Proof.Machine

variable {c : Config} {f : Frame} {b : Byte}

/-! ### The step is injective -/

/-- The low byte of what a step adds gives back the byte it was made of: x <<< 5 and the fold are undone in turn. -/
theorem crcFoldByte_lo8_crcByteRemainder (h : Byte) :
    crcFoldByte (lo8 (crcByteRemainder h) ^^^ (lo8 (crcByteRemainder h) <<< 5)) = h := by
  revert h; decide

theorem crcByteRemainder_injective_lo8 : Function.Injective fun h => lo8 (crcByteRemainder h) :=
  Function.LeftInverse.injective (g := fun y : Byte => crcFoldByte (y ^^^ (y <<< 5))) crcFoldByte_lo8_crcByteRemainder

/-- The low byte of the accumulator after a step is made by the byte that was folded in. -/
theorem lo8_shiftLeft_eight_xor (v w : Half) : lo8 ((v <<< 8) ^^^ w) = lo8 w := by
  have hzero : lo8 (v <<< 8) = 0#8 := by
    apply BitVec.eq_of_toNat_eq
    rw [lo8_toNat, BitVec.toNat_shiftLeft, Nat.shiftLeft_eq]
    simp only [BitVec.toNat_ofNat]
    omega
  rw [lo8, BitVec.extractLsb'_xor, ← lo8, hzero, ← lo8, BitVec.zero_xor]

theorem hi8_shiftLeft_eight (v : Half) : hi8 (v <<< 8) = lo8 v := by
  apply BitVec.eq_of_toNat_eq
  rw [hi8_toNat, lo8_toNat, BitVec.toNat_shiftLeft, Nat.shiftLeft_eq]
  omega

/-- What two steps with one result have in common: the byte folded in, and the byte that was shifted up. -/
theorem crc16Step_inj {v w : Half} {a b : Byte} (h : crc16Step v a = crc16Step w b) :
    hi8 v ^^^ a = hi8 w ^^^ b ∧ lo8 v = lo8 w := by
  rw [crc16Step_eq_shiftLeft_xor, crc16Step_eq_shiftLeft_xor] at h
  have hfolded : hi8 v ^^^ a = hi8 w ^^^ b := by
    apply crcByteRemainder_injective_lo8
    have hlow := congrArg lo8 h
    rwa [lo8_shiftLeft_eight_xor, lo8_shiftLeft_eight_xor] at hlow
  rw [hfolded, BitVec.xor_left_inj] at h
  exact ⟨hfolded, by rw [← hi8_shiftLeft_eight v, h, hi8_shiftLeft_eight]⟩

theorem crc16Step_injective_byte (v : Half) : Function.Injective (crc16Step v) := by
  intro a b h
  obtain ⟨hfolded, -⟩ := crc16Step_inj h
  exact (BitVec.xor_right_inj _).mp hfolded

theorem crc16Step_injective_crc (b : Byte) : Function.Injective (crc16Step · b) := by
  intro v w h
  obtain ⟨hfolded, hlow⟩ := crc16Step_inj h
  rw [← le16_lo8_hi8 v, ← le16_lo8_hi8 w, hlow, (BitVec.xor_left_inj _).mp hfolded]

/-! ### One byte of a list -/

/-- Equal bytes keep different accumulators different. -/
theorem foldl_crc16Step_injective (bytes : List Byte) : Function.Injective (bytes.foldl crc16Step) := by
  induction bytes with
  | nil => exact fun _ _ h => h
  | cons b bytes ih => exact ih.comp (crc16Step_injective_crc b)

theorem foldl_crc16Step_set_ne {bytes : List Byte} {i : Nat} (hi : i < bytes.length) (hb : b ≠ bytes[i])
    (crc : Half) : (bytes.set i b).foldl crc16Step crc ≠ bytes.foldl crc16Step crc := by
  induction bytes generalizing i crc with
  | nil => exact absurd hi (Nat.not_lt_zero i)
  | cons a bytes ih =>
    cases i with
    | zero => exact fun h => hb (crc16Step_injective_byte crc (foldl_crc16Step_injective bytes h))
    | succ i => exact ih (Nat.lt_of_succ_lt_succ hi) hb (crc16Step crc a)

/-! ### One byte of a frame -/

theorem spanOf_eq_ofFn (f : Frame) : spanOf f = List.ofFn fun j : Fin 14 => f[j.val + 1] := rfl

@[simp] theorem length_spanOf (f : Frame) : (spanOf f).length = 14 := rfl

/-- Entry j of the span is offset j + 1 of the frame (R73). -/
theorem spanOf_getElem (f : Frame) {j : Nat} (hj : j < (spanOf f).length) :
    (spanOf f)[j] = f[j + 1]'(by rw [length_spanOf] at hj; omega) := by
  simp only [spanOf_eq_ofFn, List.getElem_ofFn]

theorem spanOf_set_succ (f : Frame) (b : Byte) {i : Nat} (hi : i < 14) :
    spanOf (f.set (i + 1) b) = (spanOf f).set i b := by
  refine List.ext_getElem (by simp) fun j hj _ => ?_
  rw [spanOf_getElem _ hj, List.getElem_set, spanOf_getElem, Vector.getElem_set]
  simp only [Nat.add_right_cancel_iff]

theorem frameCrc_set_ne {i : Nat} (hi : i < 18) (h1 : 1 ≤ i) (h14 : i ≤ 14) (hb : b ≠ f[i]) :
    frameCrc (f.set i b) ≠ frameCrc f := by
  obtain ⟨j, rfl⟩ := Nat.exists_eq_add_of_le' h1
  have hj : j < (spanOf f).length := h14
  rw [frameCrc, spanOf_set_succ f b h14]
  exact foldl_crc16Step_set_ne hj (by rwa [spanOf_getElem]) Config.crcInit

/-- The checksum bytes are outside the span (R73). -/
theorem frameCrc_set_of_gt {i : Nat} (hi : i < 18) (h14 : 14 < i) : frameCrc (f.set i b) = frameCrc f := by
  have hspan : spanOf (f.set i b) = spanOf f := by
    refine List.ext_getElem rfl fun j hj _ => ?_
    rw [length_spanOf] at hj
    rw [spanOf_getElem, spanOf_getElem, Vector.getElem_set_ne _ _ (by omega)]
  rw [frameCrc, hspan, frameCrc]

theorem regCsum_set_of_lt {i : Nat} (hi : i < 15) : regCsum (f.set i b) = regCsum f := by
  rw [regCsum, Vector.getElem_set_ne _ _ (by omega), Vector.getElem_set_ne _ _ (by omega), regCsum]

theorem le16_inj {a a' b b' : Byte} : le16 a b = le16 a' b' ↔ a = a' ∧ b = b' := by
  refine ⟨fun h => ⟨?_, ?_⟩, fun ⟨ha, hb⟩ => by rw [ha, hb]⟩
  · rw [← lo8_le16 a b, h, lo8_le16]
  · rw [← hi8_le16 a b, h, hi8_le16]

theorem regCsum_set_ne {i : Nat} (hi : i < 18) (h : i = 15 ∨ i = 16) (hb : b ≠ f[i]) :
    regCsum (f.set i b) ≠ regCsum f := by
  intro hcsum
  obtain ⟨hlow, hhigh⟩ := le16_inj.mp hcsum
  rcases h with rfl | rfl
  · exact hb (by simpa using hlow)
  · exact hb (by simpa using hhigh)

/-- A change of one byte under the checksum, or of it, breaks their agreement. -/
theorem frameCrc_ne_regCsum_set {i : Nat} (hi : i < 18) (h1 : 1 ≤ i) (h16 : i ≤ 16) (hb : b ≠ f[i])
    (hcsum : frameCrc f = regCsum f) : frameCrc (f.set i b) ≠ regCsum (f.set i b) := by
  by_cases h14 : i ≤ 14
  · rw [regCsum_set_of_lt (Nat.lt_succ_of_le h14), ← hcsum]
    exact frameCrc_set_ne hi h1 h14 hb
  · rw [frameCrc_set_of_gt hi (Nat.not_le.mp h14), hcsum]
    exact (regCsum_set_ne hi (by omega) hb).symm

theorem regEof_set {i : Nat} (hi : i < 18) (h17 : i ≠ 17) : regEof (f.set i b) = regEof f :=
  Vector.getElem_set_ne hi _ h17

theorem regLen_set {i : Nat} (hi : i < 18) (h9 : i ≠ 9) (h10 : i ≠ 10) : regLen (f.set i b) = regLen f := by
  rw [regLen, Vector.getElem_set_ne _ _ h9, Vector.getElem_set_ne _ _ h10, regLen]

/-- The markers of a valid frame stay right, so the length check sees the change, which it can at LEN alone, or leaves
it to the checksum (R120, R122, R123). -/
theorem validate_set_of_valid {i : Nat} (hi : i < 18) (hv : validate c f = .valid) (h1 : 1 ≤ i) (h16 : i ≤ 16)
    (hb : b ≠ f[i]) :
    validate c (f.set i b) = .invalid .integrity ∨
      (validate c (f.set i b) = .invalid .framingLength ∧ (i = 9 ∨ i = 10)) := by
  obtain ⟨hsof, heof, hlen, hcsum⟩ := validate_eq_valid_iff.mp hv
  rw [← regSof_set hi b (by omega)] at hsof
  rw [← regEof_set hi (by omega)] at heof
  by_cases hlong : Config.dataCap < (regLen (f.set i b)).toNat
  · refine .inr ⟨validate_eq_framingLength_iff.mpr ⟨hsof, heof, hlong⟩, ?_⟩
    refine Decidable.byContradiction fun hother => ?_
    obtain ⟨h9, h10⟩ := not_or.mp hother
    rw [regLen_set hi h9 h10] at hlong
    exact absurd hlen (Nat.not_le.mpr hlong)
  · exact .inl (validate_eq_integrity_iff.mpr
      ⟨hsof, heof, Nat.not_lt.mp hlong, frameCrc_ne_regCsum_set hi h1 h16 hb hcsum⟩)

/-- Settles O8: a step of the checksum is injective in its byte, and the steps after it in the accumulator. -/
theorem singleByteCorruptionCaught : Obligations.SingleByteCorruptionCaught :=
  ⟨fun _ i _ h1 h14 hb => frameCrc_set_ne i.isLt h1 h14 hb,
    fun _ _ i _ hv h1 h16 hb => validate_set_of_valid i.isLt hv h1 h16 hb⟩

end Sys2Proof.Machine
end

section
/-! SUPPORT. The errors (60_exceptions.md R160 to R165): how many events a step records, and what each event says of the
step that records it. -/

namespace Sys2Proof.Machine

variable {s t : State}

/-! ### How many events -/

theorem State.Records.length_le {events : List Event} (h : s.Records t events) : events.length ≤ 2 := by
  cases h with
  | nothing => exact Nat.zero_le 2
  | other => exact Nat.le_succ 1
  | guard => exact Nat.le_succ 1
  | answer => exact Nat.le_succ 1
  | readAnswer => exact Nat.le_refl 2

/-- Settles O52: of what a step can record, the answer to READ_MEM is the longest. -/
theorem traceOnlyGrows : Obligations.TraceOnlyGrows := by
  intro s t h
  obtain ⟨events, htrace, hevents⟩ := step_growsTrace h
  exact ⟨events, htrace, hevents.length_le⟩

/-! ### What an event shows -/

/-- What a recorded event says of the step from s to t: a drop is silent, a response is about to be queued with the
flags of its outcome, a byte lost to a full channel leaves both channels alone; the rest is no error. -/
inductive State.Shows (s t : State) : Event → Prop
  | noError {e : Event} (cls : e.errorClass = none) : s.Shows t e
  | drop {cls : DropClass} (phase : t.phase = .run) (idle : t.Idle) (tx : t.tx = s.tx)
      (memCalls : t.memCalls = s.memCalls) : s.Shows t (.frameDrop cls)
  | answer {cmd : Byte} {ok : Bool} (phase : t.phase = .emit 0)
      (ack : (regFlags t.buf).getLsbD s.cfg.flagBit.ack.val = true)
      (statusError : (regFlags t.buf).getLsbD s.cfg.flagBit.statusError.val = !ok) : s.Shows t (.response cmd ok)
  | lost {e : Event} (cls : e.errorClass = some .channelOverflow) (rx : t.rx = s.rx) (tx : t.tx = s.tx) :
      s.Shows t e

/-- Every event that the step from s to t records shows what it stands for. -/
def State.ShowsAll (s t : State) : Prop :=
  ∃ events, t.trace = s.trace ++ events ∧ ∀ e ∈ events, s.Shows t e

theorem showsAll_of_eq (h : t.trace = s.trace) : s.ShowsAll t :=
  ⟨[], by rw [h, List.append_nil], nofun⟩

theorem showsAll_of_one {e : Event} (h : t.trace = s.trace ++ [e]) (he : s.Shows t e) : s.ShowsAll t :=
  ⟨[e], h, by simpa using he⟩

theorem statusError_responseFrame {fb : FlagBits} (h : fb.ack ≠ fb.statusError) (ok : Bool) (g : Frame) :
    (regFlags (responseFrame fb ok g)).getLsbD fb.statusError.val = !ok := by
  rw [regFlags_responseFrame, responseFlags_getLsbD _ _ _ _ h, answeredFlag_statusError h]

/-- The read before a response is no error of its own: its outcome is the response's. -/
theorem complete_collected_showsAll {b : Byte} {rx : Channel} (hl : s.cfg.Legal) (hp : s.phase = .run)
    (h : complete (s.collected b rx) = .next t) : s.ShowsAll t := by
  obtain ⟨-, ⟨cls, -, rfl⟩ | ⟨-, hemit, -, -, f, ok, hbuf, -, hport⟩⟩ := complete_frame h
  · exact showsAll_of_one rfl (.drop hp ⟨rfl, rfl⟩ rfl rfl)
  · have hne := ack_ne_statusError hl
    have hanswer (cmd : Byte) : s.Shows t (.response cmd ok) :=
      .answer hemit (hbuf ▸ ack_responseFrame hne ok f) (hbuf ▸ statusError_responseFrame hne ok f)
    rcases hport with ⟨-, htrace⟩ | ⟨g, m, -, -, htrace⟩
    · exact showsAll_of_one htrace (hanswer _)
    · exact ⟨_, htrace, List.forall_mem_cons.mpr ⟨.noError rfl, List.forall_mem_singleton.mpr (hanswer _)⟩⟩

theorem engineByte_showsAll (hl : s.cfg.Legal) (hp : s.phase = .run) (h : engineByte s = .next t) :
    s.ShowsAll t := by
  rcases engineByte_cases s with
    ⟨-, e⟩ | ⟨b, rx, -, ⟨-, e⟩ | ⟨-, -, e⟩ | ⟨-, -, -, e⟩ | ⟨-, -, -, e⟩⟩ <;> rw [e] at h
  case inr.inr.inr.inr => exact complete_collected_showsAll hl hp h
  all_goals cases h
  · exact showsAll_of_eq rfl
  · rcases parseIdle_trace b (s.setRx rx) with htrace | htrace
    · exact showsAll_of_eq htrace
    · exact showsAll_of_one htrace (.noError rfl)
  · exact showsAll_of_one rfl (.drop hp ⟨rfl, rfl⟩ rfl rfl)
  · exact showsAll_of_eq (appendByte_trace b _)

theorem engineEmit_showsAll (k : Fin 18) (s : State) : s.ShowsAll (engineEmit k s) := by
  rcases engineEmit_cases k s with ⟨tx, -, e⟩ | ⟨-, -, e⟩ | ⟨-, -, e⟩ <;> rw [e]
  · exact showsAll_of_eq (nextEmit_trace k _)
  · have hkeeps := nextEmit_keepsPorts k (s.record (.txOverflow k s.buf[k]))
    exact showsAll_of_one (nextEmit_trace k _) (.lost rfl hkeeps.rx hkeeps.tx)
  · exact showsAll_of_one rfl (.lost rfl rfl rfl)

theorem linkPush_showsAll (b : Byte) (s : State) : s.ShowsAll (linkPush b s) := by
  rcases linkPush_cases b s with ⟨rx, -, e⟩ | ⟨-, e⟩ <;> rw [e]
  · exact showsAll_of_eq rfl
  · exact showsAll_of_one rfl (.lost rfl rfl rfl)

theorem linkPop_showsAll (s : State) : s.ShowsAll (linkPop s) := by
  rcases linkPop_cases s with ⟨b, tx, -, e⟩ | ⟨-, e⟩ <;> rw [e]
  · exact showsAll_of_one rfl (.noError rfl)
  · exact showsAll_of_eq rfl

theorem takeTurn_showsAll {turn : Turn} (hl : s.cfg.Legal) (h : takeTurn turn s = .next t) : s.ShowsAll t := by
  cases turn with
  | linkPush b => cases h; exact linkPush_showsAll b s
  | linkPop => cases h; exact linkPop_showsAll s
  | blockReset => cases h; exact showsAll_of_eq (blockReset_trace s)
  | engine =>
    have h : engineTurn s = .next t := h
    cases hp : s.phase with
    | run => exact engineByte_showsAll hl hp ((engineTurn_run hp).symm.trans h)
    | emit k =>
      rw [engineTurn_emit hp] at h
      cases h
      exact engineEmit_showsAll k s

/-- The schedule has no part in what an event shows. -/
theorem State.Shows.of_setTurns {ts : List Turn} {e : Event} (h : (s.setTurns ts).Shows t e) : s.Shows t e := by
  cases h with
  | noError hcls => exact .noError hcls
  | drop hphase hidle htx hcalls => exact .drop hphase hidle htx hcalls
  | answer hphase hack herr => exact .answer hphase hack herr
  | lost hcls hrx htx => exact .lost hcls hrx htx

theorem step_showsAll (hl : s.cfg.Legal) (h : step s = .next t) : s.ShowsAll t := by
  obtain ⟨u, hn, rfl⟩ | ⟨turn, u, hn, hturn⟩ := step_cases h
  · rw [nextTurn_state hn]
    exact showsAll_of_eq rfl
  · rw [nextTurn_state hn] at hturn
    obtain ⟨events, htrace, hevents⟩ := takeTurn_showsAll (s := s.setTurns u.turns) hl hturn
    exact ⟨events, htrace, fun e he => (hevents e he).of_setTurns⟩

/-! ### By its class -/

theorem errorClass_frameDrop (cls : DropClass) :
    (Event.frameDrop cls).errorClass = some .framingError ∨
      (Event.frameDrop cls).errorClass = some .integrityError := by
  cases cls with
  | framingMarker => exact .inl rfl
  | framingLength => exact .inl rfl
  | integrity => exact .inr rfl
  | overflow => exact .inl rfl

theorem errorClass_response (cmd : Byte) (ok : Bool) :
    (Event.response cmd ok).errorClass = if ok then none else some .commandError := rfl

theorem State.Shows.silent {e : Event} (h : s.Shows t e)
    (hcls : e.errorClass = some .framingError ∨ e.errorClass = some .integrityError) :
    t.phase = .run ∧ t.Idle ∧ t.tx = s.tx ∧ t.memCalls = s.memCalls := by
  cases h with
  | noError hnone => simp [hnone] at hcls
  | drop hphase hidle htx hcalls => exact ⟨hphase, hidle, htx, hcalls⟩
  | answer => simp [errorClass_response] at hcls
  | lost hlost => simp [hlost] at hcls

theorem State.Shows.answered {e : Event} (h : s.Shows t e) (hcls : e.errorClass = some .commandError) :
    t.phase = .emit 0 ∧ (regFlags t.buf).getLsbD s.cfg.flagBit.ack.val = true ∧
      (regFlags t.buf).getLsbD s.cfg.flagBit.statusError.val = true := by
  cases h with
  | noError hnone => simp [hnone] at hcls
  | @drop cls => rcases errorClass_frameDrop cls with hdrop | hdrop <;> simp [hdrop] at hcls
  | @answer _ ok hphase hack herr =>
    have hok : ok = false := by simpa [errorClass_response] using hcls
    exact ⟨hphase, hack, by rw [herr, hok, Bool.not_false]⟩
  | lost hlost => simp [hlost] at hcls

theorem State.Shows.channelsKept {e : Event} (h : s.Shows t e) (hcls : e.errorClass = some .channelOverflow) :
    t.rx = s.rx ∧ t.tx = s.tx := by
  cases h with
  | noError hnone => simp [hnone] at hcls
  | @drop cls => rcases errorClass_frameDrop cls with hdrop | hdrop <;> simp [hdrop] at hcls
  | answer => simp [errorClass_response] at hcls
  | lost _ hrx htx => exact ⟨hrx, htx⟩

/-- Settles O49: the events are those the step records, and each shows what its class asks. -/
theorem errorClassDecidesWhatTheHostSees : Obligations.ErrorClassDecidesWhatTheHostSees := by
  intro s t events e hinv hstep htrace he
  obtain ⟨recorded, hrecorded, hshows⟩ := step_showsAll hinv.legal hstep
  have hsame : events = recorded := List.append_cancel_left (htrace.symm.trans hrecorded)
  have h := hshows e (hsame ▸ he)
  exact ⟨h.silent, h.answered, h.channelsKept⟩

end Sys2Proof.Machine
end

section
/-! SUPPORT. Block reset and quiescence (70_reset_and_hazards.md R180 to R182, R191, R193): the values a reset leaves,
the waiting of a quiescent state, and the fair completion, every turn of which takes from the work that remains. -/

namespace Sys2Proof.Machine

variable {s t : State} {b : Byte} {rx : Channel}

/-! ### Reset -/

/-- Settles O42: each reset value is a field of `State.resetWith`, and both channels' indices are equal. -/
theorem resetValues : Obligations.ResetValues :=
  ⟨rfl, by decide, fun _ _ => ⟨⟨rfl, rfl⟩, rfl, rfl, rfl, rfl, rfl, rfl, rfl⟩⟩

/-- Settles O43: the turn is taken from the schedule, and the block reset leaves the values of R181. -/
theorem blockResetResetsEverything : Obligations.BlockResetResetsEverything := by
  intro s rest hturns
  obtain ⟨hcfg, hidle, hphase, -, -, hrxh, hrxt, -, htxh, htxt, htrace, -, hrest, hcalls⟩ :=
    blockReset_fields (s.setTurns rest)
  exact ⟨blockReset (s.setTurns rest), step_of_turns hturns, hidle, hphase, hrxh, hrxt, htxh, htxt,
    txReady_eq_false_iff.mpr (htxh.trans htxt.symm), hcfg, hcalls, htrace, hrest⟩

/-! ### The fair turn -/

theorem engineEnabled_run_iff (hp : s.phase = .run) : s.engineEnabled = true ↔ s.rx.head ≠ s.rx.tail := by
  simp [State.engineEnabled, hp, Channel.isEmpty]

theorem engineEnabled_of_emit {k : Fin 18} (hp : s.phase = .emit k) : s.engineEnabled = true := by
  simp only [State.engineEnabled, hp]

theorem fairTurn_of_quiescent (h : s.Quiescent) : s.fairTurn = none := by
  obtain ⟨hp, hrx, htx⟩ := h
  have hengine : ¬ s.engineEnabled = true := fun hen => (engineEnabled_run_iff hp).mp hen hrx
  have hlink : ¬ s.txReady = true := fun hready => txReady_iff.mp hready htx
  simp only [State.fairTurn, if_neg hengine, if_neg hlink]

/-- With nothing scheduled the engine goes first, then the link, and a state with neither enabled is quiescent
(R191, R193). -/
theorem fairTurn_cases (s : State) :
    (s.engineEnabled = true ∧ s.fairTurn = some .engine) ∨ (s.txReady = true ∧ s.fairTurn = some .linkPop) ∨
      s.Quiescent := by
  by_cases hen : s.engineEnabled = true
  · exact .inl ⟨hen, if_pos hen⟩
  by_cases hready : s.txReady = true
  · exact .inr (.inl ⟨hready, (if_neg hen).trans (if_pos hready)⟩)
  cases hp : s.phase with
  | emit k => exact absurd (engineEnabled_of_emit hp) hen
  | run =>
    rw [engineEnabled_run_iff hp, not_not] at hen
    rw [txReady_iff, not_not] at hready
    exact .inr (.inr ⟨hp, hen, hready⟩)

theorem nextTurn_of_unscheduled (h : s.turns = []) : s.nextTurn = (s.fairTurn, s) := by
  simp only [State.nextTurn, h]

theorem step_of_quiescent (h : s.Quiescent) (hturns : s.turns = []) : step s = .next s :=
  step_of_waiting ((nextTurn_of_unscheduled hturns).trans (by rw [fairTurn_of_quiescent h]))

/-- Settles O44: no turn is fair in a quiescent state, and its empty RX has room for the byte pushed. -/
theorem quiescentStateWaits : Obligations.QuiescentStateWaits := by
  intro s h hq hturns
  refine ⟨step_of_quiescent hq hturns, fun b => ?_⟩
  obtain ⟨hp, hempty, -⟩ := hq
  obtain ⟨-, -, -, ⟨htwo, -⟩, -⟩ := h.legal
  have hroom : s.rx.occupancy s.cfg.rxSlots < s.cfg.rxSlots - 1 := by
    rw [(Channel.occupancy_eq_zero_iff h.rx).mpr hempty]
    omega
  obtain ⟨filled, hpush⟩ := Channel.exists_push h.rx (rxSlots_le h.legal) hroom b
  have hheld : filled.head ≠ filled.tail := Channel.head_ne_tail_of_push h.rx (rxSlots_le h.legal) hpush
  exact ⟨_, step_linkPush_of_push (s := s.setTurns [.linkPush b]) rfl hpush,
    (engineEnabled_run_iff (s := ((s.setTurns []).setRx filled).setReply .pushOk) hp).mpr hheld⟩

/-! ### What a turn leaves of the schedule, and of RX -/

@[simp] theorem parseIdle_turns (b : Byte) (s : State) : (parseIdle b s).turns = s.turns := by
  by_cases h : b = s.cfg.startMarker
  · simp [parseIdle_marker h]
  · simp [parseIdle_other h]

@[simp] theorem appendByte_turns (b : Byte) (s : State) : (appendByte b s).turns = s.turns := by
  unfold appendByte
  rw [storeByte_rest]
  rfl

theorem engineByte_turns (h : engineByte s = .next t) : t.turns = s.turns := by
  rcases engineByte_cases s with
    ⟨-, e⟩ | ⟨b, rx, -, ⟨-, e⟩ | ⟨-, -, e⟩ | ⟨-, -, -, e⟩ | ⟨-, -, -, e⟩⟩ <;> rw [e] at h
  case inr.inr.inr.inr =>
    obtain ⟨⟨-, -, -, -, -, hturns⟩, -⟩ := complete_frame h
    exact hturns
  all_goals cases h
  · rfl
  · exact parseIdle_turns b _
  · rfl
  · exact appendByte_turns b _

theorem engineTurn_turns (h : engineTurn s = .next t) : t.turns = s.turns := by
  cases hp : s.phase with
  | run => exact engineByte_turns ((engineTurn_run hp).symm.trans h)
  | emit k =>
    rw [engineTurn_emit hp] at h
    cases h
    exact engineEmit_turns k s

@[simp] theorem linkPush_turns (b : Byte) (s : State) : (linkPush b s).turns = s.turns := by
  rcases linkPush_cases b s with ⟨rx, -, e⟩ | ⟨-, e⟩ <;> rw [e] <;> rfl

@[simp] theorem linkPop_turns (s : State) : (linkPop s).turns = s.turns := by
  rcases linkPop_cases s with ⟨b, tx, -, e⟩ | ⟨-, e⟩ <;> rw [e] <;> rfl

/-- Only the taking of a turn shortens the schedule, not what is done in it. -/
theorem takeTurn_turns {turn : Turn} (h : takeTurn turn s = .next t) : t.turns = s.turns := by
  cases turn with
  | linkPush b => cases h; exact linkPush_turns b s
  | linkPop => cases h; exact linkPop_turns s
  | engine => exact engineTurn_turns h
  | blockReset =>
    cases h
    obtain ⟨-, -, -, -, -, -, -, -, -, -, -, -, hturns, -⟩ := blockReset_fields s
    exact hturns

/-- Whatever the engine does with the byte it pops, RX is left as the pop leaves it. -/
theorem engineByte_rx_of_pop (hpop : s.rx.pop s.cfg.rxSlots = some (b, rx)) (h : engineByte s = .next t) :
    t.rx = rx := by
  rcases engineByte_cases s with
    ⟨hempty, -⟩ | ⟨b', rx', hpop', hbyte⟩
  · rw [pop_empty hempty] at hpop
    cases hpop
  · cases hpop.symm.trans hpop'
    rcases hbyte with ⟨-, e⟩ | ⟨-, -, e⟩ | ⟨-, -, -, e⟩ | ⟨-, -, -, e⟩ <;> rw [e] at h
    · cases h; exact (parseIdle_keepsPorts b _).rx
    · cases h; rfl
    · cases h; exact (appendByte_keepsPorts b _).rx
    · exact (complete_keepsPorts h).rx

@[simp] theorem linkPop_rx (s : State) : (linkPop s).rx = s.rx := by
  rcases linkPop_cases s with ⟨b, tx, -, e⟩ | ⟨-, e⟩ <;> rw [e] <;> rfl

/-! ### The work that remains -/

theorem Phase.remaining_le (p : Phase) : p.remaining ≤ 18 := by
  cases p with
  | run => exact Nat.zero_le 18
  | emit k => exact Nat.sub_le 18 k.val

/-- A byte taken from RX may bring a whole response to queue, and still costs work. -/
theorem engineByte_work (h : s.Inv) (hp : s.phase = .run) (hheld : s.rx.head ≠ s.rx.tail)
    (ht : engineByte s = .next t) : t.work < s.work := by
  have hpop := pop_byte (n := s.cfg.rxSlots) hheld
  have hocc := Channel.occupancy_pop h.rx (rxSlots_le h.legal) hpop
  have hrem := Phase.remaining_le t.phase
  rw [← engineByte_rx_of_pop hpop ht] at hocc
  unfold State.work
  rw [engineByte_cfg ht, engineByte_tx ht, hp]
  omega

/-- An offer leaves a byte less of the response. -/
theorem engineEmit_remaining (k : Fin 18) (s : State) : (engineEmit k s).phase.remaining < 18 - k.val := by
  have hseq := engineEmit_sequencing k s
  split at hseq
  · obtain ⟨hphase, -⟩ := hseq
    rw [hphase]
    exact Nat.sub_pos_of_lt k.isLt
  next hmore =>
    obtain ⟨hphase, -⟩ := hseq
    have hk : k.val ≠ 17 := fun hlast => hmore (.inl hlast)
    have hnext : (k + 1).val = k.val + 1 := Fin.val_add_one_of_lt (Fin.lt_def.mpr (by rw [Fin.val_last]; omega))
    rw [hphase, Phase.remaining, hnext]
    omega

/-- An offer puts a byte on TX at most. -/
theorem engineEmit_tx_occupancy_le (h : s.Inv) (k : Fin 18) :
    (engineEmit k s).tx.occupancy s.cfg.txSlots ≤ s.tx.occupancy s.cfg.txSlots + 1 := by
  have hoffer := engineEmit_offer k s
  split at hoffer <;> obtain ⟨htx, -⟩ := hoffer <;> rw [htx]
  next hpush => exact Nat.le_of_eq (Channel.occupancy_push h.tx (txSlots_le h.legal) hpush)
  next => exact Nat.le_succ _

theorem engineEmit_work (h : s.Inv) {k : Fin 18} (hp : s.phase = .emit k) : (engineEmit k s).work < s.work := by
  have hrem := engineEmit_remaining k s
  have htx := engineEmit_tx_occupancy_le h k
  unfold State.work
  rw [engineEmit_cfg, (engineEmit_emitKeeps k s).rx, hp, Phase.remaining]
  omega

theorem engineTurn_work (h : s.Inv) (hen : s.engineEnabled = true) (ht : engineTurn s = .next t) :
    t.work < s.work := by
  cases hp : s.phase with
  | run =>
    rw [engineTurn_run hp] at ht
    exact engineByte_work h hp ((engineEnabled_run_iff hp).mp hen) ht
  | emit k =>
    rw [engineTurn_emit hp] at ht
    cases ht
    exact engineEmit_work h hp

theorem linkPop_work (h : s.Inv) (hready : s.txReady = true) : (linkPop s).work < s.work := by
  have hpop := pop_byte (n := s.cfg.txSlots) (txReady_iff.mp hready)
  have hocc := Channel.occupancy_pop h.tx (txSlots_le h.legal) hpop
  have htx := congrArg State.tx (linkPop_of_pop hpop)
  unfold State.work
  rw [linkPop_cfg, linkPop_rx, (linkPop_keeps s).phase, htx, State.setReply_tx, State.record_tx, State.setTx_tx]
  omega

theorem work_of_quiescent (h : s.Inv) (hq : s.Quiescent) : s.work = 0 := by
  obtain ⟨hp, hrx, htx⟩ := hq
  simp only [State.work, (Channel.occupancy_eq_zero_iff h.rx).mpr hrx,
    (Channel.occupancy_eq_zero_iff h.tx).mpr htx, hp, Phase.remaining]

/-! ### The fair completion -/

/-- With nothing scheduled a step waits in a quiescent state, or takes from the work that remains. -/
theorem step_unscheduled (h : s.Inv) (hturns : s.turns = []) :
    (s.Quiescent ∧ step s = .next s) ∨ ∃ t : State, step s = .next t ∧ t.turns = [] ∧ t.work < s.work := by
  have hn := nextTurn_of_unscheduled hturns
  rcases fairTurn_cases s with ⟨hen, hfair⟩ | ⟨hready, hfair⟩ | hq
  · obtain ⟨t, ht⟩ := exists_engineTurn s
    rw [hfair] at hn
    exact .inr ⟨t, (step_of_turn hn).trans ht, (engineTurn_turns ht).trans hturns, engineTurn_work h hen ht⟩
  · rw [hfair] at hn
    exact .inr ⟨linkPop s, step_of_turn hn, (linkPop_turns s).trans hturns, linkPop_work h hready⟩
  · exact .inl ⟨hq, step_of_quiescent hq hturns⟩

theorem run_unscheduled {n : Nat} (h : s.Inv) (hturns : s.turns = []) (hwork : s.work ≤ n) :
    ∃ t, core.run n s = .next t ∧ t.Quiescent := by
  induction n generalizing s with
  | zero =>
    rcases step_unscheduled h hturns with ⟨hq, -⟩ | ⟨t, -, -, hless⟩
    · exact ⟨s, rfl, hq⟩
    · omega
  | succ n ih =>
    rcases step_unscheduled h hturns with ⟨hq, hstep⟩ | ⟨t, hstep, hturns', hless⟩
    · rw [run_succ hstep]
      exact ih h hturns (by rw [work_of_quiescent h hq]; exact Nat.zero_le n)
    · rw [run_succ hstep]
      exact ih (step_inv h hstep) hturns' (by omega)

/-- Settles O56: each step takes from the work that remains, and a state in which none is left is quiescent. -/
theorem fairCompletionReachesQuiescence : Obligations.FairCompletionReachesQuiescence :=
  fun s h hturns => run_unscheduled h hturns (Nat.le_refl s.work)

end Sys2Proof.Machine
end

section
/-! SUPPORT. The flush (70_reset_and_hazards.md R186): what zero bytes do to the parser when neither marker is 0x00, the
end of a response under way, and the two as one invariant of every interleaving. -/

namespace Sys2Proof.Machine

variable {s t u : State}

/-- What R186 asks of the parameters: neither marker is 0x00. -/
structure MarkersNonzero (c : Config) : Prop where
  start : c.startMarker ≠ 0#8
  last  : c.endMarker ≠ 0#8

/-- Every byte RX holds is 0x00. -/
def State.RxZero (s : State) : Prop := ∀ b ∈ s.rx.contents s.cfg.rxSlots, b = 0#8

/-! ### Zero bytes in RUN -/

/-- A frame whose last byte is 0x00 lacks the end marker (R121). -/
theorem validate_set_zero {c : Config} (h : MarkersNonzero c) (f : Frame) :
    validate c (f.set 17 0#8) = .invalid .framingMarker := by
  refine validate_eq_framingMarker_iff.mpr (.inr ?_)
  rw [regEof, Vector.getElem_set_self]
  exact h.last.symm

/-- In RUN from s to t, j engine turns took zero bytes as far as RX held them. A frame still under way has grown by
each of them; nothing else has happened but discards in IDLE and the drop of a frame under way. -/
structure State.Discards (s : State) (j : Nat) (t : State) : Prop where
  cfg      : t.cfg = s.cfg
  phase    : t.phase = .run
  tx       : t.tx = s.tx
  memCalls : t.memCalls = s.memCalls
  zeros    : t.RxZero
  held     : t.rx.occupancy s.cfg.rxSlots = s.rx.occupancy s.cfg.rxSlots - j
  cursor   : t.started = true → s.started = true ∧
    s.idx.toNat + s.rx.occupancy s.cfg.rxSlots ≤ t.idx.toNat + t.rx.occupancy s.cfg.rxSlots
  trace    : ∃ events, t.trace = s.trace ++ events ∧
    ∀ e ∈ events, e = .idleDiscard 0#8 ∨ (s.started = true ∧ e = .frameDrop .framingMarker)

theorem State.Discards.refl (hp : s.phase = .run) (hz : s.RxZero) : s.Discards 0 s :=
  ⟨rfl, hp, rfl, rfl, hz, rfl, fun hs => ⟨hs, Nat.le_refl _⟩, [], by simp, nofun⟩

theorem State.Discards.trans {i j : Nat} (h : s.Discards i t) (h' : t.Discards j u) : s.Discards (i + j) u := by
  obtain ⟨hcfg, -, htx, hcalls, -, hheld, hcursor, events, htrace, hevents⟩ := h
  obtain ⟨hcfg', hp, htx', hcalls', hz, hheld', hcursor', events', htrace', hevents'⟩ := h'
  rw [hcfg] at hheld' hcursor'
  refine ⟨hcfg'.trans hcfg, hp, htx'.trans htx, hcalls'.trans hcalls, hz, by omega, fun hs => ?_,
    events ++ events', by rw [htrace', htrace, List.append_assoc], fun e he => ?_⟩
  · obtain ⟨hs', hle'⟩ := hcursor' hs
    obtain ⟨hs, hle⟩ := hcursor hs'
    exact ⟨hs, by omega⟩
  · rcases List.mem_append.mp he with he | he
    · exact hevents e he
    · exact (hevents' e he).imp_right fun ⟨hs, hdrop⟩ => ⟨(hcursor hs).1, hdrop⟩

/-- The schedule has no part in it. -/
theorem State.Discards.of_setTurns {ts : List Turn} {j : Nat} (h : (s.setTurns ts).Discards j t) :
    s.Discards j t :=
  ⟨h.cfg, h.phase, h.tx, h.memCalls, h.zeros, h.held, h.cursor, h.trace⟩

/-- A zero byte is discarded in IDLE, stored in a frame, or the end of a frame that is dropped. -/
theorem engineByte_discards (h : s.Inv) (hm : MarkersNonzero s.cfg) (hp : s.phase = .run) (hz : s.RxZero)
    (ht : engineByte s = .next t) : s.Discards 1 t := by
  rcases engineByte_cases s with ⟨hempty, e⟩ | ⟨b, rx, hpop, hbyte⟩
  · cases e.symm.trans ht
    have hnone := (Channel.occupancy_eq_zero_iff h.rx).mpr hempty
    exact ⟨rfl, hp, rfl, rfl, hz, by omega, fun hs => ⟨hs, Nat.le_refl _⟩, [], by simp, nofun⟩
  have hocc := Channel.occupancy_pop h.rx (rxSlots_le h.legal) hpop
  have hheld : rx.occupancy s.cfg.rxSlots = s.rx.occupancy s.cfg.rxSlots - 1 := by omega
  have hcontents := Channel.contents_pop h.rx (rxSlots_le h.legal) hpop
  rw [State.RxZero, hcontents, List.forall_mem_cons] at hz
  obtain ⟨rfl, hrest⟩ := hz
  rcases hbyte with ⟨hs, e⟩ | ⟨-, hi, -⟩ | ⟨hs, -, -, e⟩ | ⟨hs, -, -, e⟩
  · rw [parseIdle_other (s := s.setRx rx) hm.start.symm] at e
    cases e.symm.trans ht
    exact ⟨rfl, hp, rfl, rfl, hrest, hheld, fun hs' => absurd (hs.symm.trans hs') nofun, [_], rfl, by simp⟩
  · exact absurd hi (Nat.not_le.mpr (h.idx_lt_bufSize hp))
  · cases e.symm.trans ht
    have h18 := h.idx_lt hp
    have hnext := idx_succ_toNat h18
    rw [appendByte_of_lt (s := s.setRx rx) 0#8 h18]
    refine ⟨rfl, hp, rfl, rfl, hrest, hheld, fun _ => ⟨hs, ?_⟩, [], (List.append_nil _).symm, nofun⟩
    simp only [State.setCursor_idx, State.setCursor_rx, State.setBuf_rx, State.setRx_rx, State.setRx_idx]
    omega
  · rw [complete_of_invalid (s := s.collected 0#8 rx) (validate_set_zero hm s.buf)] at e
    cases e.symm.trans ht
    exact ⟨rfl, hp, rfl, rfl, hrest, hheld, nofun, [_], rfl, by simp [hs]⟩

theorem step_discards {rest : List Turn} (h : s.Inv) (hm : MarkersNonzero s.cfg) (hp : s.phase = .run)
    (hz : s.RxZero) (hturns : s.turns = .engine :: rest) :
    ∃ t : State, step s = .next t ∧ t.turns = rest ∧ s.Discards 1 t := by
  obtain ⟨t, ht⟩ := exists_engineByte (s.setTurns rest)
  refine ⟨t, ?_, engineByte_turns ht, (engineByte_discards (h.setTurns rest) hm hp hz ht).of_setTurns⟩
  exact (step_of_turns hturns).trans ((engineTurn_run (s := s.setTurns rest) hp).trans ht)

/-- Scheduled engine turns over zero bytes, and over an empty RX where they are more than these (log entry 3). -/
theorem run_discards {rest : List Turn} {j : Nat} (h : s.Inv) (hm : MarkersNonzero s.cfg) (hp : s.phase = .run)
    (hz : s.RxZero) (hturns : s.turns = List.replicate j .engine ++ rest) :
    ∃ t : State, core.run j s = .next t ∧ t.turns = rest ∧ s.Discards j t := by
  induction j generalizing s with
  | zero => exact ⟨s, rfl, hturns, .refl hp hz⟩
  | succ j ih =>
    obtain ⟨v, hstep, hturns', hdiscards⟩ := step_discards h hm hp hz hturns
    obtain ⟨t, hrun, hrest, hdiscards'⟩ := ih (step_inv h hstep) (by rw [hdiscards.cfg]; exact hm)
      hdiscards.phase hdiscards.zeros hturns'
    rw [Nat.add_comm j 1]
    exact ⟨t, (run_add (run_one hstep)).trans hrun, hrest, hdiscards.trans hdiscards'⟩

/-- No frame under way in RUN has 18 bytes or more. -/
theorem State.Inv.idle_of_cursor (h : s.Inv) (hp : s.phase = .run)
    (hcursor : s.started = true → 18 ≤ s.idx.toNat) : s.Idle := by
  rcases (sequenced_run_iff hp).mp h.sequenced with hidle | ⟨⟨hs, -, hhigh⟩, -⟩
  · exact hidle
  · have hlow := hcursor hs
    omega

theorem rxZero_of_contents {j : Nat} (h : s.rx.contents s.cfg.rxSlots = List.replicate j 0#8) : s.RxZero := by
  intro b hb
  rw [h] at hb
  exact List.eq_of_mem_replicate hb

theorem occupancy_of_contents {n j : Nat} {ch : Channel} (h : ch.contents n = List.replicate j 0#8) :
    ch.occupancy n = j := by
  rw [← Channel.length_contents, h, List.length_replicate]

/-- As many turns as RX holds bytes leave it empty. -/
theorem State.Discards.contents_eq_nil {j : Nat} (h : s.Discards j t)
    (hj : s.rx.occupancy s.cfg.rxSlots ≤ j) : t.rx.contents s.cfg.rxSlots = [] := by
  rw [← List.length_eq_zero_iff, Channel.length_contents, h.held]
  omega

/-- Settles O53: a frame under way has its 18th byte among the 17 zeros, and lacks the end marker. -/
theorem flushBringsParserToIdle : Obligations.FlushBringsParserToIdle := by
  intro s rest h hstart hlast hp hheld hturns
  have hocc := occupancy_of_contents hheld
  obtain ⟨t, hrun, hrest, hdiscards⟩ := run_discards h ⟨hstart, hlast⟩ hp (rxZero_of_contents hheld) hturns
  have hidle : t.Idle := by
    refine (run_inv h hrun).idle_of_cursor hdiscards.phase fun ht => ?_
    obtain ⟨hs, hle⟩ := hdiscards.cursor ht
    obtain ⟨⟨-, hlow, -⟩, -⟩ := h.collecting hp hs
    have hleft := hdiscards.held
    omega
  obtain ⟨events, htrace, hevents⟩ := hdiscards.trace
  exact ⟨t, hrun, hidle, hdiscards.phase, hdiscards.contents_eq_nil (Nat.le_of_eq hocc), hdiscards.tx,
    hdiscards.memCalls, hrest, events, htrace, fun e he => (hevents e he).imp_right And.right⟩

/-! ### The end of a response -/

/-- From byte m on the response of s was completed: t is in RUN and IDLE, TX holds as many of its bytes as it had room
for, and the trace names others that were lost. -/
structure State.Responds (s : State) (m : Nat) (t : State) : Prop where
  phase    : t.phase = .run
  idle     : t.Idle
  contents : t.tx.contents s.cfg.txSlots =
    s.tx.contents s.cfg.txSlots ++ (s.buf.toList.drop m).take s.txRoom
  trace    : ∃ ks, t.trace = s.trace ++ s.lost ks
  keeps    : s.EmitKeeps t

/-- Under AbortRest an offer to a full TX loses its byte and ends the response (R140). -/
theorem step_aborts {rest : List Turn} {m : Nat} (hm : m < 18) (hat : s.AtByte m)
    (hpolicy : s.cfg.txFullPolicy = .abortRest) (hfull : ∀ b, s.tx.push s.cfg.txSlots b = none)
    (hturns : s.turns = .engine :: rest) :
    step s = .next ((s.setTurns rest).record (.txOverflow ⟨m, hm⟩ s.buf[m])).endResponse := by
  rw [step_engine_emit hturns ((atByte_iff_emit hm).mp hat)]
  exact congrArg Host.Outcome.next (engineEmit_of_full_abortRest (s := s.setTurns rest) (hfull _) hpolicy)

/-- Without room the rest of the response is lost byte by byte, or ends with the first of them (R140). -/
theorem run_responds_of_full {rest : List Turn} {m : Nat} (h : s.Inv) (hroom : s.txRoom = 0) (hm : m < 18)
    (hat : s.AtByte m) (hturns : s.turns = List.replicate (18 - m) .engine ++ rest) :
    ∃ i t, i ≤ 18 - m ∧ core.run i s = .next t ∧
      t.turns = List.replicate (18 - m - i) .engine ++ rest ∧ s.Responds m t := by
  have hfull := push_of_txRoom_eq_zero h hroom
  cases hpolicy : s.cfg.txFullPolicy with
  | dropContinue =>
    obtain ⟨t, hrun, hrest, hat', htx, htrace, hkeeps⟩ := run_loses hat (by omega) hpolicy hfull hturns
    rw [Nat.add_sub_of_le (Nat.le_of_lt hm)] at hat'
    obtain ⟨hphase, hidle⟩ := atByte_eighteen_iff.mp hat'
    refine ⟨18 - m, t, Nat.le_refl _, hrun, by simp [hrest], hphase, hidle, ?_, ⟨_, htrace⟩, hkeeps⟩
    simp [htx, hroom]
  | abortRest =>
    obtain ⟨i, hi⟩ : ∃ i, 18 - m = i + 1 := ⟨18 - m - 1, by omega⟩
    rw [hi, List.replicate_succ, List.cons_append] at hturns
    have hstep := step_aborts hm hat hpolicy hfull hturns
    refine ⟨1, _, by omega, run_one hstep, by rw [hi]; rfl, rfl, ⟨rfl, rfl⟩, ?_, ⟨[⟨m, hm⟩], rfl⟩,
      ⟨rfl, rfl, rfl, rfl, rfl, rfl, rfl⟩⟩
    rw [hroom, List.take_zero, List.append_nil]
    rfl

/-- The turns for the rest of a response complete it; AbortRest may leave some of them over. -/
theorem run_responds {rest : List Turn} {m : Nat} (h : s.Inv) (hm : m ≤ 18) (hat : s.AtByte m)
    (hturns : s.turns = List.replicate (18 - m) .engine ++ rest) :
    ∃ i t, i ≤ 18 - m ∧ core.run i s = .next t ∧
      t.turns = List.replicate (18 - m - i) .engine ++ rest ∧ s.Responds m t := by
  rcases Nat.lt_or_ge s.txRoom (18 - m) with hroom | hroom
  · obtain ⟨j, hj⟩ := Nat.exists_eq_add_of_lt hroom
    have hj' : 18 - (m + s.txRoom) = j + 1 := by omega
    rw [hj, Nat.add_assoc, ← List.replicate_append_replicate, List.append_assoc, ← hj'] at hturns
    obtain ⟨v, hrun, hturns', hat', hcontents, hroom', htrace, hkeeps⟩ :=
      run_queues h hat (by omega) (Nat.le_refl _) hturns
    obtain ⟨i, t, hi, hrun', hrest, hphase, hidle, hcontents', ⟨ks, htrace'⟩, hkeeps'⟩ :=
      run_responds_of_full (run_inv h hrun) (by omega) (by omega) hat' hturns'
    refine ⟨s.txRoom + i, t, by omega, (run_add hrun).trans hrun', ?_, hphase, hidle, ?_, ⟨ks, ?_⟩,
      hkeeps.trans hkeeps'⟩
    · rw [hrest]
      congr 2
      omega
    · have hv : v.txRoom = 0 := by omega
      rw [hkeeps.cfg, hv, List.take_zero, List.append_nil] at hcontents'
      exact hcontents'.trans hcontents
    · rw [htrace', htrace, lost_congr hkeeps.buf]
  · obtain ⟨t, hrun, hrest, hat', hcontents, -, htrace, hkeeps⟩ := run_queues h hat (by omega) hroom hturns
    rw [Nat.add_sub_of_le hm] at hat'
    obtain ⟨hphase, hidle⟩ := atByte_eighteen_iff.mp hat'
    refine ⟨18 - m, t, Nat.le_refl _, hrun, by simp [hrest], hphase, hidle, ?_, ⟨[], ?_⟩, hkeeps⟩
    · rw [hcontents, List.take_of_length_le (by simp), List.take_of_length_le (by simpa using hroom)]
    · simp [htrace, State.lost]

theorem mem_lost {ks : List (Fin 18)} {e : Event} (h : e ∈ s.lost ks) : ∃ j : Fin 18, e = .txOverflow j s.buf[j] := by
  obtain ⟨j, -, rfl⟩ := List.mem_map.mp h
  exact ⟨j, rfl⟩

/-- Settles O54: the response ends in IDLE with RX untouched, and IDLE discards the 17 zeros. -/
theorem flushEndsResponseFirst : Obligations.FlushEndsResponseFirst := by
  intro s k rest h hstart hlast hp hheld hturns
  have hk : k.val < 18 := k.isLt
  rw [← List.replicate_append_replicate, List.append_assoc] at hturns
  obtain ⟨i, v, hi, hrun, hturns', hphase, hidle, hcontents, ⟨ks, htrace⟩, hkeeps⟩ :=
    run_responds h (Nat.le_of_lt hk) ((atByte_iff_emit hk).mpr hp) hturns
  rw [← List.append_assoc, List.replicate_append_replicate] at hturns'
  rw [← hkeeps.rx, ← hkeeps.cfg] at hheld
  obtain ⟨t, hrun', hrest, hdiscards⟩ := run_discards (run_inv h hrun)
    (by rw [hkeeps.cfg]; exact ⟨hstart, hlast⟩) hphase (rxZero_of_contents hheld) hturns'
  have hsplit : 18 - k.val + 17 = i + (18 - k.val - i + 17) := by omega
  have hempty := hdiscards.contents_eq_nil (by rw [occupancy_of_contents hheld]; omega)
  have hnever : ¬ v.started = true := by simp [hidle.1]
  obtain ⟨events, htrace', hevents⟩ := hdiscards.trace
  refine ⟨t, ?_, ?_, hdiscards.phase, ?_, hdiscards.memCalls.trans hkeeps.memCalls, hrest, ?_,
    s.lost ks ++ events, ?_, fun e he => ?_⟩
  · rw [hsplit, run_add hrun, hrun']
  · exact (run_inv (run_inv h hrun) hrun').idle_of_cursor hdiscards.phase
      fun ht => absurd (hdiscards.cursor ht).1 hnever
  · rw [← hkeeps.cfg]; exact hempty
  · rw [hdiscards.tx, hcontents]
  · rw [htrace', htrace, List.append_assoc]
  · rcases List.mem_append.mp he with he | he
    · exact .inr (mem_lost he)
    · exact .inl ((hevents e he).resolve_right fun hdrop => hnever hdrop.1)

end Sys2Proof.Machine
end

section
/-! SUPPORT. The flush under every interleaving (70_reset_and_hazards.md R186): an invariant of pushes of 0x00, pops and
engine turns that counts the zero bytes pushed, packaged as one induction over the schedule. -/

namespace Sys2Proof.Machine

variable {s t u : State} {l p : Nat}

/-! ### What the schedule carries along -/

/-- From s to t nothing was read from the target and no response was formed. -/
structure State.Quiet (s t : State) : Prop where
  memCalls  : t.memCalls = s.memCalls
  responses : t.trace.countP Event.isResponse = s.trace.countP Event.isResponse

theorem State.Quiet.trans (h : s.Quiet t) (h' : t.Quiet u) : s.Quiet u :=
  ⟨h'.memCalls.trans h.memCalls, h'.responses.trans h.responses⟩

/-- RX holds zero bytes alone, and in RUN a frame under way will be l bytes long or longer once it has taken
them. -/
structure State.Draining (s : State) (l : Nat) : Prop where
  zeros  : s.RxZero
  cursor : s.phase = .run → s.started = true → l ≤ s.idx.toNat + s.rx.occupancy s.cfg.rxSlots

/-- Of p zero bytes pushed, RX holds all, behind others, or holds nothing else and has brought what it took to a frame
under way that began before them. -/
def State.Behind (s : State) (p : Nat) : Prop :=
  s.Draining (1 + p) ∨ ∃ b old, s.rx.contents s.cfg.rxSlots = b :: old ++ List.replicate p 0#8

/-- t has the parameters, the cursor, the phase and the RX of s. -/
structure State.SameInput (s t : State) : Prop where
  cfg     : t.cfg = s.cfg
  started : t.started = s.started
  idx     : t.idx = s.idx
  phase   : t.phase = s.phase
  rx      : t.rx = s.rx

theorem State.Draining.congr (h : s.Draining l) (hsame : s.SameInput t) : t.Draining l := by
  obtain ⟨hcfg, hstarted, hidx, hphase, hrx⟩ := hsame
  refine ⟨?_, ?_⟩
  · rw [State.RxZero, hrx, hcfg]; exact h.zeros
  · rw [hphase, hstarted, hidx, hrx, hcfg]; exact h.cursor

theorem State.Behind.congr (h : s.Behind p) (hsame : s.SameInput t) : t.Behind p := by
  refine h.imp (·.congr hsame) fun hold => ?_
  rw [hsame.rx, hsame.cfg]
  exact hold

theorem linkPop_sameInput (s : State) : s.SameInput (linkPop s) :=
  have hkeeps := linkPop_keeps s
  ⟨linkPop_cfg s, hkeeps.started, hkeeps.idx, hkeeps.phase, linkPop_rx s⟩

/-! ### A push of a zero byte -/

section
variable {filled : Channel} {reply : LinkReply}

theorem State.Draining.push (h : s.Inv) (hd : s.Draining l) (hp : s.rx.push s.cfg.rxSlots 0#8 = some filled) :
    ((s.setRx filled).setReply reply).Draining (l + 1) := by
  have hcontents := Channel.contents_push h.rx (rxSlots_le h.legal) hp
  have hocc := Channel.occupancy_push h.rx (rxSlots_le h.legal) hp
  refine ⟨?_, fun hrun hs => ?_⟩
  · show ∀ b ∈ filled.contents s.cfg.rxSlots, b = 0#8
    rw [hcontents]
    exact List.forall_mem_append.mpr ⟨hd.zeros, by simp⟩
  · show l + 1 ≤ s.idx.toNat + filled.occupancy s.cfg.rxSlots
    have hcursor := hd.cursor hrun hs
    omega

theorem State.Behind.push (h : s.Inv) (hb : s.Behind p) (hp : s.rx.push s.cfg.rxSlots 0#8 = some filled) :
    ((s.setRx filled).setReply reply).Behind (p + 1) := by
  refine hb.imp (·.push h hp) fun ⟨b, old, hold⟩ => ⟨b, old, ?_⟩
  show filled.contents s.cfg.rxSlots = _
  rw [Channel.contents_push h.rx (rxSlots_le h.legal) hp, hold, List.append_assoc, List.replicate_succ']

end

/-! ### A turn of the engine -/

theorem State.Discards.quiet {j : Nat} (h : s.Discards j t) : s.Quiet t := by
  obtain ⟨events, htrace, hevents⟩ := h.trace
  refine ⟨h.memCalls, ?_⟩
  rw [htrace, List.countP_append, Nat.add_eq_left, List.countP_eq_zero]
  intro e he
  rcases hevents e he with rfl | ⟨-, rfl⟩ <;> exact nofun

theorem State.Discards.draining {j : Nat} (h : s.Discards j t) (hp : s.phase = .run) (hd : s.Draining l) :
    t.Draining l := by
  refine ⟨h.zeros, fun _ ht => ?_⟩
  obtain ⟨hs, hle⟩ := h.cursor ht
  rw [h.cfg]
  exact (hd.cursor hp hs).trans hle

theorem engineEmit_quiet (k : Fin 18) (s : State) : s.Quiet (engineEmit k s) := by
  refine ⟨engineEmit_memCalls k s, ?_⟩
  have hoffer := engineEmit_offer k s
  split at hoffer <;> obtain ⟨-, htrace⟩ := hoffer <;> rw [htrace]
  exact (List.countP_append ..).trans (Nat.add_zero _)

/-- A response ends in IDLE, so a frame is never under way right after an offer. -/
theorem engineEmit_draining (k : Fin 18) (hd : s.Draining l) : (engineEmit k s).Draining l := by
  have hkeeps := engineEmit_emitKeeps k s
  refine ⟨?_, fun hp hs => ?_⟩
  · rw [State.RxZero, hkeeps.rx, hkeeps.cfg]; exact hd.zeros
  · have hseq := engineEmit_sequencing k s
    split at hseq
    · obtain ⟨-, hidle, -⟩ := hseq
      exact absurd (hidle.symm.trans hs) nofun
    · obtain ⟨hemit, -⟩ := hseq
      exact absurd (hemit.symm.trans hp) nofun

/-- Zero bytes draw no response, whatever the phase they meet. -/
theorem engineTurn_draining (h : s.Inv) (hm : MarkersNonzero s.cfg) (hd : s.Draining l)
    (ht : engineTurn s = .next t) : t.Draining l ∧ s.Quiet t := by
  cases hp : s.phase with
  | run =>
    rw [engineTurn_run hp] at ht
    have hdiscards := engineByte_discards h hm hp hd.zeros ht
    exact ⟨hdiscards.draining hp hd, hdiscards.quiet⟩
  | emit k =>
    rw [engineTurn_emit hp] at ht
    cases ht
    exact ⟨engineEmit_draining k hd, engineEmit_quiet k s⟩

/-- The cursor of a frame under way in RUN is at 1 or beyond: what `State.Draining` asks when the zeros are all there
is. -/
theorem State.Inv.draining (h : s.Inv) (hheld : s.rx.contents s.cfg.rxSlots = List.replicate p 0#8) :
    s.Draining (1 + p) := by
  refine ⟨rxZero_of_contents hheld, fun hp hs => ?_⟩
  obtain ⟨⟨-, hlow, -⟩, -⟩ := h.collecting hp hs
  rw [occupancy_of_contents hheld]
  exact Nat.add_le_add_right hlow p

theorem engineTurn_behind (h : s.Inv) (hm : MarkersNonzero s.cfg) (hb : s.Behind p)
    (ht : engineTurn s = .next t) : t.Behind p := by
  rcases hb with hd | ⟨b, old, hold⟩
  · exact .inl (engineTurn_draining h hm hd ht).1
  cases hp : s.phase with
  | emit k =>
    rw [engineTurn_emit hp] at ht
    cases ht
    have hkeeps := engineEmit_emitKeeps k s
    exact .inr ⟨b, old, by rw [hkeeps.rx, hkeeps.cfg, hold]⟩
  | run =>
    have htinv := engineTurn_inv h ht
    rw [engineTurn_run hp] at ht
    rcases Channel.pop_cases h.rx (rxSlots_le h.legal) with ⟨hnil, -⟩ | ⟨b', rx, hpop, -, hcontents⟩
    · rw [hold] at hnil
      cases hnil
    have hrest : t.rx.contents t.cfg.rxSlots = old ++ List.replicate p 0#8 := by
      rw [engineByte_rx_of_pop hpop ht, engineByte_cfg ht]
      exact (List.cons.inj (hcontents.symm.trans hold)).2
    cases old with
    | nil => exact .inl (htinv.draining hrest)
    | cons b'' old => exact .inr ⟨b'', old, hrest⟩

/-! ### The induction over the schedule -/

/-- P is kept by every turn of a flush, and counts the zero bytes pushed. -/
structure FlushInvariant (P : Nat → State → Prop) : Prop where
  setTurns : ∀ {l s} (ts : List Turn), P l s → P l (s.setTurns ts)
  engine   : ∀ {l s t}, s.Inv → MarkersNonzero s.cfg → P l s → engineTurn s = .next t → P l t
  linkPop  : ∀ {l s}, P l s → P l (linkPop s)
  linkPush : ∀ {l s filled}, s.Inv → P l s → s.rx.push s.cfg.rxSlots 0#8 = some filled →
    P (l + 1) ((s.setRx filled).setReply .pushOk)

/-- The turns of a flush (R186). -/
def Turn.OfFlush (turn : Turn) : Prop := turn = .engine ∨ turn = .linkPop ∨ turn = .linkPush 0#8

theorem linkPush_overflow_countP {b : Byte} (h : s.rx.push s.cfg.rxSlots b = none) :
    (linkPush b s).trace.countP Event.isRxOverflow = s.trace.countP Event.isRxOverflow + 1 := by
  rw [linkPush_of_full h]
  exact List.countP_append ..

theorem FlushInvariant.takeTurn {P : Nat → State → Prop} (hP : FlushInvariant P) {turn : Turn} (h : s.Inv)
    (hm : MarkersNonzero s.cfg) (hturn : turn.OfFlush) (ht : takeTurn turn s = .next t)
    (hkept : t.trace.countP Event.isRxOverflow = s.trace.countP Event.isRxOverflow) (hl : P l s) :
    P (l + [turn].count (.linkPush 0#8)) t := by
  rcases hturn with rfl | rfl | rfl
  · exact hP.engine h hm hl ht
  · cases ht
    exact hP.linkPop hl
  · cases ht
    cases hpush : s.rx.push s.cfg.rxSlots 0#8 with
    | some filled =>
      rw [linkPush_of_push hpush, List.count_singleton_self]
      exact hP.linkPush h hl hpush
    | none =>
      rw [linkPush_overflow_countP hpush] at hkept
      exact absurd hkept (Nat.succ_ne_self _)

theorem run_trace_prefix {i : Nat} (hrun : core.run i s = .next t) : s.trace <+: t.trace := by
  induction i generalizing s with
  | zero => cases hrun; exact List.prefix_refl _
  | succ i ih =>
    obtain ⟨v, hstep⟩ := everyStateHasANextState s
    rw [run_succ hstep] at hrun
    obtain ⟨events, htrace, -⟩ := step_growsTrace hstep
    exact List.IsPrefix.trans ⟨events, htrace.symm⟩ (ih hrun)

/-- Along a flush in which no byte is dropped, as many zero bytes are counted as were pushed. -/
theorem FlushInvariant.run {P : Nat → State → Prop} (hP : FlushInvariant P) {ts rest : List Turn} (h : s.Inv)
    (hm : MarkersNonzero s.cfg) (hturns : s.turns = ts ++ rest) (hts : ∀ turn ∈ ts, turn.OfFlush)
    (hrun : core.run ts.length s = .next t)
    (hkept : t.trace.countP Event.isRxOverflow = s.trace.countP Event.isRxOverflow) (hl : P l s) :
    P (l + ts.count (.linkPush 0#8)) t := by
  induction ts generalizing s l with
  | nil => cases hrun; exact hl
  | cons turn ts ih =>
    obtain ⟨v, hstep⟩ := everyStateHasANextState s
    rw [List.length_cons, run_succ hstep] at hrun
    have hfirst := (run_trace_prefix (run_one hstep)).sublist.countP_le (p := Event.isRxOverflow)
    have hlater := (run_trace_prefix hrun).sublist.countP_le (p := Event.isRxOverflow)
    have hvinv := step_inv h hstep
    have hvm : MarkersNonzero v.cfg := by rw [step_cfg hstep]; exact hm
    rw [step_of_turns hturns] at hstep
    obtain ⟨hturn, hts⟩ := List.forall_mem_cons.mp hts
    have hv := hP.takeTurn (h.setTurns (ts ++ rest)) hm hturn hstep (Nat.le_antisymm (hkept ▸ hlater) hfirst)
      (hP.setTurns (ts ++ rest) hl)
    have ht := ih hvinv hvm (takeTurn_turns hstep) hts hrun (hkept.trans (by omega)) hv
    rwa [Nat.add_assoc, ← List.count_append] at ht

theorem setTurns_sameInput (s : State) (ts : List Turn) : s.SameInput (s.setTurns ts) :=
  ⟨rfl, rfl, rfl, rfl, rfl⟩

theorem behind_flushInvariant : FlushInvariant fun p s => s.Behind p where
  setTurns ts hb := hb.congr (setTurns_sameInput _ ts)
  engine := engineTurn_behind
  linkPop hb := hb.congr (linkPop_sameInput _)
  linkPush := State.Behind.push

theorem linkPop_quiet (s : State) : s.Quiet (linkPop s) := by
  refine ⟨(linkPop_keeps s).memCalls, ?_⟩
  rcases linkPop_cases s with ⟨b, tx, -, e⟩ | ⟨-, e⟩ <;> rw [e]
  · exact (List.countP_append ..).trans (Nat.add_zero _)
  · rfl

theorem draining_flushInvariant (s : State) : FlushInvariant fun l t => t.Draining l ∧ s.Quiet t where
  setTurns ts h := ⟨h.1.congr (setTurns_sameInput _ ts), h.2.trans ⟨rfl, rfl⟩⟩
  engine h hm hl ht :=
    have hengine := engineTurn_draining h hm hl.1 ht
    ⟨hengine.1, hl.2.trans hengine.2⟩
  linkPop h := ⟨h.1.congr (linkPop_sameInput _), h.2.trans (linkPop_quiet _)⟩
  linkPush h hl hp := ⟨hl.1.push h hp, hl.2.trans ⟨rfl, rfl⟩⟩

/-! ### The parser after the flush -/

theorem State.Inv.behind_zero (h : s.Inv) : s.Behind 0 := by
  cases hheld : s.rx.contents s.cfg.rxSlots with
  | nil => exact .inl (h.draining hheld)
  | cons b old => exact .inr ⟨b, old, by rw [hheld, List.replicate_zero, List.append_nil]⟩

theorem State.Draining.idle (hd : s.Draining l) (h : s.Inv) (hl : 18 ≤ l) (hp : s.phase = .run)
    (hempty : s.rx.head = s.rx.tail) : s.Idle := by
  refine h.idle_of_cursor hp fun hs => ?_
  have hcursor := hd.cursor hp hs
  rw [(Channel.occupancy_eq_zero_iff h.rx).mpr hempty] at hcursor
  exact hl.trans hcursor

/-- Behind nothing: RX holds none of the zero bytes. -/
theorem State.Behind.draining (hb : s.Behind p) (h : s.Inv) (hempty : s.rx.head = s.rx.tail) :
    s.Draining (1 + p) := by
  refine hb.resolve_right fun ⟨b, old, hold⟩ => ?_
  rw [(Channel.contents_eq_nil_iff h.rx).mpr hempty] at hold
  cases hold

/-- Over an empty RX the cursor alone is asked for. -/
theorem State.Inv.draining_of_empty (h : s.Inv) (hempty : s.rx.head = s.rx.tail)
    (hcursor : s.started = true → l ≤ s.idx.toNat) : s.Draining l := by
  refine ⟨?_, fun _ hs => (hcursor hs).trans (Nat.le_add_right ..)⟩
  rw [State.RxZero, (Channel.contents_eq_nil_iff h.rx).mpr hempty]
  exact nofun

/-- Settles O55: 17 zeros are more than any frame under way can take behind whatever RX held, and over an empty RX the
cursor counts exactly. -/
theorem flushUnderEverySchedule : Obligations.FlushUnderEverySchedule := by
  intro s t ts rest n h hstart hlast hturns hts hn henough hrun hkept hp hempty
  have hm : MarkersNonzero s.cfg := ⟨hstart, hlast⟩
  have htinv := run_inv h hrun
  have hdrain {l : Nat} (hd : s.Draining l) : t.Draining (l + n) ∧ s.Quiet t :=
    hn ▸ (draining_flushInvariant s).run h hm hturns hts hrun hkept ⟨hd, rfl, rfl⟩
  refine ⟨?_, fun hempty' => ?_⟩
  · rcases henough with h17 | ⟨hempty', hcursor⟩
    · have hb : t.Behind (0 + n) := hn ▸ behind_flushInvariant.run h hm hturns hts hrun hkept h.behind_zero
      exact (hb.draining htinv hempty).idle htinv (by omega) hp hempty
    · have hd : s.Draining (18 - n) := h.draining_of_empty hempty' fun hs => by have := hcursor hs; omega
      exact (hdrain hd).1.idle htinv (by omega) hp hempty
  · obtain ⟨hcalls, hresponses⟩ := (hdrain (h.draining_of_empty (l := 0) hempty' fun _ => Nat.zero_le _)).2
    exact ⟨hcalls, hresponses⟩

end Sys2Proof.Machine
end
